-- ==== Sys2Proof/Word.lean ====
section
/-! DEFINITION. The data of the block: trits, words of trits, the two wires that carry a trit, word buses and
two's complement binary words. Types and their plainest reading only; every computation stands in Machine/. -/

namespace Sys2Proof

/-- One balanced-ternary digit (00_scope.md R11, 41_trit.md R80): exactly the values -1, 0 and +1. -/
inductive Trit where
  | neg
  | zero
  | pos
  deriving DecidableEq, Repr

/-- The integer a trit stands for (R80). -/
def Trit.toInt : Trit → Int
  | .neg => -1
  | .zero => 0
  | .pos => 1

/-- A word of trits, index 0 the least significant (R11, 42_convert_order.md R90). That a word of an instance has
exactly N trits is an invariant (`Machine.State.Inv`), not a property of the type. -/
abbrev Word := List Trit

/-- The two wires `c[1:0]` that carry one trit (30_encoding.md R50). The code 10 denotes no trit. -/
abbrev Code := BitVec 2

/-- The wires of a word port, grouped trit by trit: entry i is bus bits [2i+1:2i] (R52). -/
abbrev Bus := List Code

/-- A binary port or register value: its width in bits and its bits, bit 0 the least significant (00_scope.md R14,
30_encoding.md R53). -/
structure BinWord where
  width : Nat
  bits : BitVec width
  deriving DecidableEq, Repr

end Sys2Proof
end

