-- ==== Sys2Proof/Config.lean ====
section
/-! DEFINITION. The parameters of a block instance (00_scope.md R6 to R10) and the one value the spec leaves open for
good, the latency (70_reset_and_hazards.md R189). -/

namespace Sys2Proof

/-- The arithmetic of the divider's trial steps (45_muldiv.md R145). -/
inductive DivTentative where
  /-- The trial result wraps modulo 3^N and the wrapped word is compared: this hardware. -/
  | wrap
  /-- A trial whose exact value leaves the range is never accepted: the specified alternative, not this hardware. -/
  | exact
  deriving DecidableEq, Repr

/-- What is fixed when a block is built: the trit width N, the binary port width B, the capability flag ARITH_CAP
and DIV_TENTATIVE (R6, R7, R9, R10). -/
structure Config where
  n : Nat
  b : Nat
  arithCap : Bool
  divTentative : DivTentative
  deriving DecidableEq, Repr

/-- M = (3^N - 1)/2, the largest value of an N-trit word (R12). -/
def maxValue (n : Nat) : Nat := (3 ^ n - 1) / 2

/-- The pairs (N, B) a model may take (R8): 1 <= N <= 40, B <= 64 and M <= 2^(B-1) - 1. -/
abbrev Config.Legal (c : Config) : Prop :=
  1 ≤ c.n ∧ c.n ≤ 40 ∧ c.b ≤ 64 ∧ maxValue c.n ≤ 2 ^ (c.b - 1) - 1

/-- The Tryte instance, N = 6 and B = 16 (R6, R7, R9, R145). -/
def Config.tryte : Config := { n := 6, b := 16, arithCap := true, divTentative := .wrap }

/-- The Word instance, N = 24 and B = 64 (R6, R7, R9, R145). -/
def Config.word : Config := { n := 24, b := 64, arithCap := true, divTentative := .wrap }

/-- The two normative instances (R8). -/
abbrev Config.Normative (c : Config) : Prop := c = Config.tryte ∨ c = Config.word

/-- FREE VALUE (log entry 4): LAT(op) - 1 for a command accepted by an instance, from its command word and its captured
operands a, b, cin and x. R189 leaves LAT open, at least 1 and possibly dependent on opcode and operands; nothing
constrains this function, so LAT is any number of cycles from 1 on. -/
opaque Config.extraCycles (c : Config) (cmd : BitVec 32) (a b : Bus) (cin : Code) (x : BinWord) : Nat

end Sys2Proof
end

