-- ==== Sys2Proof/Syntax.lean ====
section
/-! DEFINITION. The 22 commands (30_encoding.md R61), one constructor per row of the opcode table. -/

namespace Sys2Proof

/-- The field W of RDRANGE: the signed width its result must fit (R58). -/
inductive WidthSel where
  /-- W = 0: the instance's own width B. -/
  | portWidth
  /-- W = 1. -/
  | w8
  /-- W = 2. -/
  | w16
  /-- W = 3. -/
  | w32
  deriving DecidableEq, Repr

/-- A decoded command. The index fields S and E are unsigned numbers 0 to 255 (R56, R57), which
`Instr.WellFormed` checks. -/
inductive Instr where
  | nop
  | tadd
  | tneg
  | tmul
  | tfromint
  | zero
  | fromdigit
  | frombin
  | tobin
  | sign
  | iszero
  | cmp
  | rdrange (start stop : Nat) (w : WidthSel)
  | wrrange (start stop : Nat)
  | addc
  | add
  | sub
  | neg
  | abs
  | shl (amount : Nat)
  | mul
  | divrem
  deriving DecidableEq, Repr

end Sys2Proof
end

