-- ==== Sys2Proof/WellFormed.lean ====
section
/-! DEFINITION. Which instructions a command word can carry: the fields S and E are eight bits wide (30_encoding.md R56,
R57). Every other field is a constructor. -/

namespace Sys2Proof

/-- The value of an 8-bit unsigned field (R56, R57). -/
abbrev FieldOk (v : Nat) : Prop := v < 256

/-- Every field of the instruction fits its place in the command word. -/
def Instr.WellFormed : Instr → Bool
  | .nop => true
  | .tadd => true
  | .tneg => true
  | .tmul => true
  | .tfromint => true
  | .zero => true
  | .fromdigit => true
  | .frombin => true
  | .tobin => true
  | .sign => true
  | .iszero => true
  | .cmp => true
  | .rdrange start stop _ => decide (FieldOk start ∧ FieldOk stop)
  | .wrrange start stop => decide (FieldOk start ∧ FieldOk stop)
  | .addc => true
  | .add => true
  | .sub => true
  | .neg => true
  | .abs => true
  | .shl amount => decide (FieldOk amount)
  | .mul => true
  | .divrem => true

end Sys2Proof
end

