-- ==== Sys2Proof/Decode.lean ====
section
/-! DEFINITION. The command word (30_encoding.md R54 to R65): its fields, the decoder, total on all 2^32 words and
rejecting by name, the encoder, and the opcode map R61 as rows. -/

namespace Sys2Proof

/-- OPC = cmd[4:0] (R55). -/
def opcField (w : BitVec 32) : Nat := (w.extractLsb' 0 5).toNat

/-- S = cmd[12:5], unsigned (R56). -/
def startField (w : BitVec 32) : Nat := (w.extractLsb' 5 8).toNat

/-- E = cmd[20:13], unsigned (R57). -/
def stopField (w : BitVec 32) : Nat := (w.extractLsb' 13 8).toNat

/-- W = cmd[22:21] (R58). -/
def widthField (w : BitVec 32) : BitVec 2 := w.extractLsb' 21 2

/-- RSV = cmd[31:23] (R59). -/
def rsvField (w : BitVec 32) : BitVec 9 := w.extractLsb' 23 9

/-- The width that a value of field W selects (R58). -/
def widthOfField (f : BitVec 2) : WidthSel :=
  if f = 0#2 then .portWidth else if f = 1#2 then .w8 else if f = 2#2 then .w16 else .w32

/-- The value of field W that selects a width (R58). -/
def fieldOfWidth : WidthSel → BitVec 2
  | .portWidth => 0#2
  | .w8 => 1#2
  | .w16 => 2#2
  | .w32 => 3#2

/-- Why a command word is illegal (R62). Each of them completes with STATUS = ILLEGAL_COMMAND. -/
inductive Illegal where
  /-- RSV is not 0 (R59). -/
  | reservedBits
  /-- OPC is one of 0x16 to 0x1F. -/
  | reservedOpcode
  /-- S is not 0 and the command does not use it (R60). -/
  | unusedStart
  /-- E is not 0 and the command does not use it (R60). -/
  | unusedStop
  /-- W is not 0 and the command does not use it (R60). -/
  | unusedWidth
  /-- An arithmetic opcode in an instance with ARITH_CAP = false (R63). -/
  | noArithmetic
  deriving DecidableEq, Repr

/-- The opcode map R61, with the values of the fields put in; none for the reserved opcodes 0x16 to 0x1F. -/
def instrOfOpcode (opc start stop : Nat) (w : WidthSel) : Option Instr :=
  match opc with
  | 0x00 => some .nop
  | 0x01 => some .tadd
  | 0x02 => some .tneg
  | 0x03 => some .tmul
  | 0x04 => some .tfromint
  | 0x05 => some .zero
  | 0x06 => some .fromdigit
  | 0x07 => some .frombin
  | 0x08 => some .tobin
  | 0x09 => some .sign
  | 0x0A => some .iszero
  | 0x0B => some .cmp
  | 0x0C => some (.rdrange start stop w)
  | 0x0D => some (.wrrange start stop)
  | 0x0E => some .addc
  | 0x0F => some .add
  | 0x10 => some .sub
  | 0x11 => some .neg
  | 0x12 => some .abs
  | 0x13 => some (.shl start)
  | 0x14 => some .mul
  | 0x15 => some .divrem
  | _ => none

/-- The commands that use field S (R60). -/
def usesStart : Instr → Bool
  | .rdrange _ _ _ | .wrrange _ _ | .shl _ => true
  | .nop | .tadd | .tneg | .tmul | .tfromint | .zero | .fromdigit | .frombin | .tobin
  | .sign | .iszero | .cmp | .addc | .add | .sub | .neg | .abs | .mul | .divrem => false

/-- The commands that use field E (R60). -/
def usesStop : Instr → Bool
  | .rdrange _ _ _ | .wrrange _ _ => true
  | .nop | .tadd | .tneg | .tmul | .tfromint | .zero | .fromdigit | .frombin | .tobin | .sign
  | .iszero | .cmp | .addc | .add | .sub | .neg | .abs | .shl _ | .mul | .divrem => false

/-- The commands that use field W (R60). -/
def usesWidth : Instr → Bool
  | .rdrange _ _ _ => true
  | .nop | .tadd | .tneg | .tmul | .tfromint | .zero | .fromdigit | .frombin | .tobin | .sign
  | .iszero | .cmp | .wrrange _ _ | .addc | .add | .sub | .neg | .abs | .shl _ | .mul | .divrem => false

/-- The arithmetic opcodes 0x0E to 0x15 (R63). -/
def isArith : Instr → Bool
  | .addc | .add | .sub | .neg | .abs | .shl _ | .mul | .divrem => true
  | .nop | .tadd | .tneg | .tmul | .tfromint | .zero | .fromdigit
  | .frombin | .tobin | .sign | .iszero | .cmp | .rdrange _ _ _ | .wrrange _ _ => false

/-- R65: the decoder of an instance whose capability flag is `arithCap`. -/
def decode (arithCap : Bool) (w : BitVec 32) : Except Illegal Instr :=
  if rsvField w ≠ 0#9 then .error .reservedBits
  else
    match instrOfOpcode (opcField w) (startField w) (stopField w) (widthOfField (widthField w)) with
    | none => .error .reservedOpcode
    | some i =>
      if startField w ≠ 0 ∧ usesStart i = false then .error .unusedStart
      else if stopField w ≠ 0 ∧ usesStop i = false then .error .unusedStop
      else if widthField w ≠ 0#2 ∧ usesWidth i = false then .error .unusedWidth
      else if arithCap = false ∧ isArith i = true then .error .noArithmetic
      else .ok i

/-- The opcode of an instruction (R61). -/
def opcodeOf : Instr → BitVec 5
  | .nop => 0x00#5
  | .tadd => 0x01#5
  | .tneg => 0x02#5
  | .tmul => 0x03#5
  | .tfromint => 0x04#5
  | .zero => 0x05#5
  | .fromdigit => 0x06#5
  | .frombin => 0x07#5
  | .tobin => 0x08#5
  | .sign => 0x09#5
  | .iszero => 0x0A#5
  | .cmp => 0x0B#5
  | .rdrange _ _ _ => 0x0C#5
  | .wrrange _ _ => 0x0D#5
  | .addc => 0x0E#5
  | .add => 0x0F#5
  | .sub => 0x10#5
  | .neg => 0x11#5
  | .abs => 0x12#5
  | .shl _ => 0x13#5
  | .mul => 0x14#5
  | .divrem => 0x15#5

/-- R54: the layout RSV | W | E | S | OPC, with RSV = 0. -/
def packFields (opc : BitVec 5) (start stop : BitVec 8) (w : BitVec 2) : BitVec 32 :=
  0#9 ++ w ++ stop ++ start ++ opc

/-- The value of field S in an instruction's word: its start index or shift amount, 0 where it has none (R56, R60). -/
def startOf : Instr → Nat
  | .rdrange start _ _ => start
  | .wrrange start _ => start
  | .shl amount => amount
  | .nop | .tadd | .tneg | .tmul | .tfromint | .zero | .fromdigit | .frombin | .tobin
  | .sign | .iszero | .cmp | .addc | .add | .sub | .neg | .abs | .mul | .divrem => 0

/-- The value of field E in an instruction's word: its end index, 0 where it has none (R57, R60). -/
def stopOf : Instr → Nat
  | .rdrange _ stop _ => stop
  | .wrrange _ stop => stop
  | .nop | .tadd | .tneg | .tmul | .tfromint | .zero | .fromdigit | .frombin | .tobin | .sign
  | .iszero | .cmp | .addc | .add | .sub | .neg | .abs | .shl _ | .mul | .divrem => 0

/-- The width field of an instruction's word: that of RDRANGE, W = 0 elsewhere (R58, R60). -/
def widthOf : Instr → WidthSel
  | .rdrange _ _ w => w
  | .nop | .tadd | .tneg | .tmul | .tfromint | .zero | .fromdigit | .frombin | .tobin | .sign
  | .iszero | .cmp | .wrrange _ _ | .addc | .add | .sub | .neg | .abs | .shl _ | .mul | .divrem => .portWidth

/-- The command word of an instruction (R54). -/
def encode (i : Instr) : BitVec 32 :=
  packFields (opcodeOf i) (BitVec.ofNat 8 (startOf i)) (BitVec.ofNat 8 (stopOf i)) (fieldOfWidth (widthOf i))

/-- The host's reading of one table word: a command is one 32-bit word, so its bits are the command word. Both named
instances have ARITH_CAP = true (R9). -/
def decodeTableWord (nbits w : Nat) : Option Instr :=
  match decode true (BitVec.ofNat 32 (w % 2 ^ nbits)) with
  | .ok i => some i
  | .error _ => none

/-- The mnemonics of R61. -/
def mnemonicOf : Instr → String
  | .nop => "NOP"
  | .tadd => "TADD"
  | .tneg => "TNEG"
  | .tmul => "TMUL"
  | .tfromint => "TFROMINT"
  | .zero => "ZERO"
  | .fromdigit => "FROMDIGIT"
  | .frombin => "FROMBIN"
  | .tobin => "TOBIN"
  | .sign => "SIGN"
  | .iszero => "ISZERO"
  | .cmp => "CMP"
  | .rdrange _ _ _ => "RDRANGE"
  | .wrrange _ _ => "WRRANGE"
  | .addc => "ADDC"
  | .add => "ADD"
  | .sub => "SUB"
  | .neg => "NEG"
  | .abs => "ABS"
  | .shl _ => "SHL"
  | .mul => "MUL"
  | .divrem => "DIVREM"

/-- A row of the opcode map R61: a word w selects it iff (w AND mask) = match. -/
structure OpcodeRow where
  mnemonic : String
  pattern : BitVec 32
  mask : BitVec 32
  deriving DecidableEq, Repr

/-- The opcode map R61, row by row. -/
def opcodeMap : List OpcodeRow :=
  [⟨"NOP", 0x00000000#32, 0xFFFFFFFF#32⟩, ⟨"TADD", 0x00000001#32, 0xFFFFFFFF#32⟩,
   ⟨"TNEG", 0x00000002#32, 0xFFFFFFFF#32⟩, ⟨"TMUL", 0x00000003#32, 0xFFFFFFFF#32⟩,
   ⟨"TFROMINT", 0x00000004#32, 0xFFFFFFFF#32⟩, ⟨"ZERO", 0x00000005#32, 0xFFFFFFFF#32⟩,
   ⟨"FROMDIGIT", 0x00000006#32, 0xFFFFFFFF#32⟩, ⟨"FROMBIN", 0x00000007#32, 0xFFFFFFFF#32⟩,
   ⟨"TOBIN", 0x00000008#32, 0xFFFFFFFF#32⟩, ⟨"SIGN", 0x00000009#32, 0xFFFFFFFF#32⟩,
   ⟨"ISZERO", 0x0000000A#32, 0xFFFFFFFF#32⟩, ⟨"CMP", 0x0000000B#32, 0xFFFFFFFF#32⟩,
   ⟨"RDRANGE", 0x0000000C#32, 0xFF80001F#32⟩, ⟨"WRRANGE", 0x0000000D#32, 0xFFE0001F#32⟩,
   ⟨"ADDC", 0x0000000E#32, 0xFFFFFFFF#32⟩, ⟨"ADD", 0x0000000F#32, 0xFFFFFFFF#32⟩,
   ⟨"SUB", 0x00000010#32, 0xFFFFFFFF#32⟩, ⟨"NEG", 0x00000011#32, 0xFFFFFFFF#32⟩,
   ⟨"ABS", 0x00000012#32, 0xFFFFFFFF#32⟩, ⟨"SHL", 0x00000013#32, 0xFFFFE01F#32⟩,
   ⟨"MUL", 0x00000014#32, 0xFFFFFFFF#32⟩, ⟨"DIVREM", 0x00000015#32, 0xFFFFFFFF#32⟩]

end Sys2Proof
end

