-- ==== Sys2Proof/Machine/Trits.lean ====
section
/-! DEFINITION. The trit functions (41_trit.md R80 to R84) and the trit code (30_encoding.md R50). -/

namespace Sys2Proof.Machine

/-- The code that carries a trit: its 2-bit two's complement (R50). -/
def enc : Trit → Code
  | .neg => 0b11#2
  | .zero => 0b00#2
  | .pos => 0b01#2

/-- The trit a code denotes; the code 10 denotes none (R50, R51). -/
def dec (c : Code) : Option Trit :=
  if c = 0b00#2 then some .zero
  else if c = 0b01#2 then some .pos
  else if c = 0b11#2 then some .neg
  else none

/-- TritFromInt (R84): succeeds only for -1, 0 and 1. -/
def tritFromInt (v : Int) : Option Trit :=
  if v = -1 then some .neg else if v = 0 then some .zero else if v = 1 then some .pos else none

/-- The carry of R81: the integer nearest to s/3, for s in [-3, 3]. -/
def tritCarry (s : Int) : Trit :=
  if 2 ≤ s then .pos else if s ≤ -2 then .neg else .zero

/-- The sum of R81: s - 3·carry, for s in [-3, 3]. -/
def tritSum (s : Int) : Trit :=
  (tritFromInt (s - 3 * (tritCarry s).toInt)).getD .zero

/-- TritFullAdd (R81): (sum, carry). -/
def tritFullAdd (a b c : Trit) : Trit × Trit :=
  (tritSum (a.toInt + b.toInt + c.toInt), tritCarry (a.toInt + b.toInt + c.toInt))

/-- TritNeg (R82): Neg and Pos swap, Zero stays. -/
def tritNeg : Trit → Trit
  | .neg => .pos
  | .zero => .zero
  | .pos => .neg

/-- TritMul (R83): the integer product. -/
def tritMul : Trit → Trit → Trit
  | .zero, _ => .zero
  | _, .zero => .zero
  | .pos, t => t
  | .neg, t => tritNeg t

end Sys2Proof.Machine
end

