-- ==== Sys2Proof/Machine/Words.lean ====
section
/-! DEFINITION. Values and binary words (00_scope.md R12 to R14) and the word functions of 42_convert_order.md to
45_muldiv.md, each as its rule's pseudocode gives it. Words are lists, trit 0 first; the functions read the width N
off their operands. -/

namespace Sys2Proof.Machine

/-- Σ w[k]·3^(i+k): the value of a word whose first trit stands at index i. -/
def valFrom : Nat → Word → Int
  | _, [] => 0
  | i, t :: w => t.toInt * 3 ^ i + valFrom (i + 1) w

/-- val(w) = Σ w[i]·3^i (R12, R90). -/
def val (w : Word) : Int := valFrom 0 w

/-- wrap_N(x) = ((x + M) mod 3^N) - M (R12). -/
def wrapN (n : Nat) (x : Int) : Int := (x + (3 ^ n - 1) / 2) % 3 ^ n - (3 ^ n - 1) / 2

/-- 0_N, the all-Zero word (R11). -/
def zeroWord (n : Nat) : Word := List.replicate n .zero

/-- digit_N(t): trit 0 is t, the others are Zero (R11). -/
def digitWord (n : Nat) (t : Trit) : Word := t :: List.replicate (n - 1) .zero

/-- sval_B(x), the two's complement value (R14). -/
def sval (x : BinWord) : Int := x.bits.toInt

/-- sext_B(v), the B-bit two's complement encoding (R14). -/
def sext (b : Nat) (v : Int) : BinWord := ⟨b, BitVec.ofInt b v⟩

/-- fits_W(v) (R14). -/
def fits (w : Nat) (v : Int) : Bool := decide (-(2 ^ (w - 1) : Int) ≤ v ∧ v ≤ (2 ^ (w - 1) : Int) - 1)

/-- One round of R94's loop: the balanced digit of q and the quotient that is left. -/
def balDigit (q : Int) : Trit × Int :=
  if q.tmod 3 = 2 then (.neg, q.tdiv 3 + 1)
  else if q.tmod 3 = -2 then (.pos, q.tdiv 3 - 1)
  else if q.tmod 3 = 1 then (.pos, q.tdiv 3)
  else if q.tmod 3 = -1 then (.neg, q.tdiv 3)
  else (.zero, q.tdiv 3)

/-- BalDigits(v, L) (R94): L balanced digits and the running quotient that is left; the loop stops at 0. -/
def balDigits : Int → Nat → Word × Int
  | q, 0 => ([], q)
  | q, l + 1 =>
    if q = 0 then (List.replicate (l + 1) .zero, 0)
    else
      let (d, q') := balDigit q
      let (ds, qEnd) := balDigits q' l
      (d :: ds, qEnd)

/-- FromNative(v) (R95): the digits alone, cut off at N. -/
def fromNative (n : Nat) (v : Int) : Word := (balDigits v n).1

/-- ToNative(w) (R96): Horner from the most significant index down to 0. -/
def toNative (w : Word) : Int := w.foldr (fun t acc => acc * 3 + t.toInt) 0

/-- ReadRange(w, start, end) (43_subrange.md R111): the Horner sum over indices end down to start. -/
def readRange (w : Word) (start stop : Nat) : Int := toNative ((w.drop start).take (stop - start + 1))

/-- WriteRange(w, v, start, end) (R114): none when a non-zero quotient is left. -/
def writeRange (w : Word) (v : Int) (start stop : Nat) : Option Word :=
  let (d, q) := balDigits v (stop - start + 1)
  if q = 0 then some (w.take start ++ d ++ w.drop (stop + 1)) else none

/-- FullAddWord(a, b, cin) (44_arith.md R120): the ripple of TritFullAdd in ascending index order; (sum, cout). -/
def fullAddWord : Word → Word → Trit → Word × Trit
  | a :: as, b :: bs, c =>
    let (d, c') := tritFullAdd a b c
    let (ds, cout) := fullAddWord as bs c'
    (d :: ds, cout)
  | _, _, c => ([], c)

/-- NegWord(w) (R125): element-wise trit negation. -/
def negWord (w : Word) : Word := w.map tritNeg

/-- ShiftLeft(w, amount) (R129): trits move up by `amount`, those past index N-1 are lost. -/
def shiftLeft (w : Word) (amount : Nat) : Word :=
  if w.length ≤ amount then zeroWord w.length
  else List.replicate amount .zero ++ w.take (w.length - amount)

/-- The accumulating loop of R140 from index i on, over the trits of rhs from i up. -/
def mulFrom (a : Word) : Nat → Word → Word → Word
  | _, [], acc => acc
  | i, b :: bs, acc =>
    mulFrom a (i + 1) bs
      (match b with
       | .pos => (fullAddWord acc (shiftLeft a i) .zero).1
       | .neg => (fullAddWord acc (negWord (shiftLeft a i)) .zero).1
       | .zero => acc)

/-- MulWord(a, b) (45_muldiv.md R140): shift and add, every carry discarded. -/
def mulWord (a b : Word) : Word := mulFrom a 0 b (zeroWord a.length)

end Sys2Proof.Machine
end

