-- ==== Sys2Proof/Machine/Flags.lean ====
section
/-! DEFINITION. What the flags T and ZF are computed from (10_state.md R25, R27): sign, is-zero and comparison
(42_convert_order.md R91 to R93), the magnitude (44_arith.md R127) and the most significant index (45_muldiv.md R143).
The carries into T are those of `tritFullAdd` and `fullAddWord`. -/

namespace Sys2Proof.Machine

/-- Sign(w) (R91): the most significant non-zero trit, Zero if there is none. A higher trit decides before a lower
one, so the tail, which holds the higher indices, is asked first. -/
def signWord : Word → Trit
  | [] => .zero
  | t :: w =>
    match signWord w with
    | .zero => t
    | c => c

/-- IsZero(w) (R92): every trit is Zero. -/
def isZeroWord (w : Word) : Bool := w.all (fun t => decide (t = .zero))

/-- The order Pos > Zero > Neg of two trits (R80, R93), as -1, 0 or +1. -/
def compareTrit (a b : Trit) : Trit :=
  if b.toInt < a.toInt then .pos else if a.toInt < b.toInt then .neg else .zero

/-- Compare(a, b) (R93): the most significant index at which the words differ decides. -/
def compareWord : Word → Word → Trit
  | a :: as, b :: bs =>
    match compareWord as bs with
    | .zero => compareTrit a b
    | c => c
  | _, _ => .zero

/-- AbsWord(w) (R127): negated if its sign is Neg, else the word itself. -/
def absWord (w : Word) : Word := if signWord w = .neg then negWord w else w

/-- MsbIndex(w) (R143): the largest index of a non-zero trit; none for the all-Zero word. -/
def msbIndex : Word → Option Nat
  | [] => none
  | t :: w =>
    match msbIndex w with
    | some i => some (i + 1)
    | none => if t = .zero then none else some 0

end Sys2Proof.Machine
end

