-- ==== Sys2Proof/Machine/Divide.lean ====
section
/-! DEFINITION. The divider (45_muldiv.md R144, R145), under either reading of DIV_TENTATIVE. -/

namespace Sys2Proof.Machine

/-- Accept(t, c, r) (R145): |t| is not greater than |r|; under EXACT the carry must also be 0. -/
def acceptTrial (tent : DivTentative) (t : Word) (c : Trit) (r : Word) : Bool :=
  let small := decide (compareWord (absWord t) (absWord r) ≠ .pos)
  match tent with
  | .wrap => small
  | .exact => decide (c = .zero) && small

/-- One position of R144's loop, for the shifted divisor s and the running remainder r: the quotient trit and the
remainder that is left. Subtraction is tried first. -/
def divStep (tent : DivTentative) (s r : Word) : Trit × Word :=
  let (t1, c1) := fullAddWord r (negWord s) .zero
  if acceptTrial tent t1 c1 r then (.pos, t1)
  else
    let (t2, c2) := fullAddWord r s .zero
    if acceptTrial tent t2 c2 r then (.neg, t2) else (.zero, r)

/-- R144's loop over the positions k-1 down to 0: the quotient trits of those positions, trit 0 first, and the
remainder. -/
def divLoop (tent : DivTentative) (d : Word) : Nat → Word → Word × Word
  | 0, r => ([], r)
  | k + 1, r =>
    let (qk, r') := divStep tent (shiftLeft d k) r
    let (qs, rEnd) := divLoop tent d k r'
    (qs ++ [qk], rEnd)

/-- DivRem(n, d) (R144), for d not all Zero: the positions are N-m-1 down to 0, the quotient's higher trits are
Zero, and the quotient alone is negated for a negative divisor. -/
def divRem (tent : DivTentative) (n d : Word) : Word × Word :=
  let m := (msbIndex (absWord d)).getD 0
  let (qs, r) := divLoop tent (absWord d) (n.length - m) n
  let q := qs ++ List.replicate m .zero
  (if signWord d = .neg then negWord q else q, r)

end Sys2Proof.Machine
end

