-- ==== Sys2Proof/Machine/State.lean ====
section
/-! DEFINITION. The state of a block (10_state.md R20, R31, R32), what the host drives on the input ports, the reasons
to stop, and the state after reset (70_reset_and_hazards.md R182). -/

namespace Sys2Proof.Machine

/-- The values the host drives on the input ports at one rising edge of `clk` (20_memory.md R41). -/
structure Drive where
  rst : Bool
  cmdValid : Bool
  cmd : BitVec 32
  a : Bus
  b : Bus
  cin : Code
  x : BinWord
  deriving DecidableEq, Repr

/-- The command word and the operand values that the block holds between acceptance and completion (10_state.md R31). -/
structure Captured where
  cmd : BitVec 32
  a : Bus
  b : Bus
  cin : Code
  x : BinWord
  deriving DecidableEq, Repr

/-- No captured command: every wire 0 (log entry 7). -/
def Captured.none (cfg : Config) : Captured :=
  { cmd := 0#32, a := List.replicate cfg.n 0#2, b := List.replicate cfg.n 0#2, cin := 0#2, x := ⟨cfg.b, 0#cfg.b⟩ }

/-- The host drives nothing: no reset, no command, every wire 0. -/
def Drive.idle (cfg : Config) : Drive :=
  { rst := false, cmdValid := false, cmd := 0#32, a := List.replicate cfg.n 0#2, b := List.replicate cfg.n 0#2,
    cin := 0#2, x := ⟨cfg.b, 0#cfg.b⟩ }

/-- The conditions of 60_exceptions.md R160, by name. -/
inductive StatusCode where
  | ok
  | invalidDigit
  | rangeInvalid
  | valueDoesNotFit
  | divByZero
  | illegalCommand
  | illegalTritCode
  deriving DecidableEq, Repr

/-- The state of one block. The registers are those of 10_state.md R20; `busy`, `captured` the hidden execution state
of R31; `done` the output of R32. The last three lines are the model's own. -/
structure State where
  /-- Y, the primary word result (R23). -/
  y : Word
  /-- R, the remainder of the last DIVREM (R24). -/
  r : Word
  /-- T, the trit result: carry, sign or comparison (R25). -/
  t : Trit
  /-- Z, the binary result (R26). -/
  z : BinWord
  /-- ZF, the result of the last ISZERO (R27). -/
  zf : Bool
  /-- STATUS, the completion code (R28). -/
  status : BitVec 4
  /-- ERRVAL, the offending value of the last INVALID_DIGIT (R29). -/
  errval : BinWord
  /-- FATAL, the sticky fatal-error bit (R30). -/
  fatal : Bool
  /-- BUSY: a command is in flight (R31). -/
  busy : Bool
  /-- The command in flight (R31); all-zero wires while BUSY = 0 (log entry 7). -/
  captured : Captured
  /-- done: a command completed on the previous edge (R32). -/
  done : Bool
  /-- The model's own: how many edges of the latency are still to pass before the completion edge (log entry 4). -/
  remaining : Nat
  /-- The model's own: the parameters of the instance, which no step changes (log entry 2). -/
  cfg : Config
  /-- The model's own: what the host drives at the coming rising edges, the next one first; after the last of
  them it drives nothing (log entry 1). -/
  script : List Drive
  deriving DecidableEq, Repr

/-- Why a run is a fault. -/
inductive Fault where
  /-- FATAL = 1: a DIVREM was given a zero divisor (60_exceptions.md R170, 70_reset_and_hazards.md R192). Raised by
  `Sys2Proof.Machine.verdictFrom`, which judges a run and lets no later step, reset included, take the fault back, and by
  no step: R170 and R180 say what the block does next. Safe: a run that the spec calls a fault is never called a
  success (log entry 5). -/
  | fatalState
  deriving DecidableEq, Repr

/-- Why an instruction has no meaning. -/
inductive Refusal where
  /-- The instruction has no meaning in the model yet. Raised only by an arm of `exec` that says so; none does.
  Safe: nothing is claimed of such a run. -/
  | notModelled (mnemonic : String)
  deriving DecidableEq, Repr

/-- The reset state of R182 in an instance, with what the host drives afterwards. -/
def State.resetOf (cfg : Config) (script : List Drive) : State :=
  { y := List.replicate cfg.n .zero
    r := List.replicate cfg.n .zero
    t := .zero
    z := ⟨cfg.b, 0#cfg.b⟩
    zf := false
    status := 0#4
    errval := ⟨cfg.b, 0#cfg.b⟩
    fatal := false
    busy := false
    captured := Captured.none cfg
    done := false
    remaining := 0
    cfg := cfg
    script := script }

/-- The machine right after reset (R182): the Tryte instance (log entry 3), the host driving nothing. -/
def State.reset : State := State.resetOf Config.tryte []

/-- What the host drives at the coming rising edge. -/
def State.drive (s : State) : Drive := s.script.headD (Drive.idle s.cfg)

end Sys2Proof.Machine
end

