-- ==== Sys2Proof/Machine/Ops.lean ====
section
/-! DEFINITION. The named operations on the registers: one write per register, the two ways a command ends (40_common.md
R70, R72), and what a clock edge does beside the command it completes (10_state.md R31, R32; 70_reset_and_hazards.md R180,
R181, R187, R189). The block has no memory (20_memory.md R40). -/

namespace Sys2Proof.Machine

/-- What a meaning answers. -/
abbrev Answer := Host.Outcome State Fault Refusal

/-- The code a condition writes to STATUS (60_exceptions.md R160). -/
def statusBits : StatusCode → BitVec 4
  | .ok => 0#4
  | .invalidDigit => 1#4
  | .rangeInvalid => 2#4
  | .valueDoesNotFit => 3#4
  | .divByZero => 4#4
  | .illegalCommand => 5#4
  | .illegalTritCode => 6#4

/-- Y <- w (10_state.md R23). -/
def State.setY (s : State) (w : Word) : State := { s with y := w }

/-- R <- w (R24). -/
def State.setR (s : State) (w : Word) : State := { s with r := w }

/-- T <- t (R25). -/
def State.setT (s : State) (t : Trit) : State := { s with t := t }

/-- Z <- v (R26). -/
def State.setZ (s : State) (v : BinWord) : State := { s with z := v }

/-- ZF <- f (R27). -/
def State.setZF (s : State) (f : Bool) : State := { s with zf := f }

/-- STATUS <- the code of c (R28). -/
def State.setStatus (s : State) (c : StatusCode) : State := { s with status := statusBits c }

/-- ERRVAL <- v (R29). -/
def State.setErrval (s : State) (v : BinWord) : State := { s with errval := v }

/-- FATAL <- 1 (R30). -/
def State.setFatal (s : State) : State := { s with fatal := true }

/-- The successful end of a command, on the state with its destinations written: STATUS <- OK (R70, R72). -/
def succeed (s : State) : Answer := .next (s.setStatus .ok)

/-- raise Status(c) (00_scope.md R15, 40_common.md R70, 60_exceptions.md R168): the one way a condition is taken. STATUS
gets the condition's code; there is no vector, no saved state and no mode change. The registers R160 names for the code
besides STATUS (ERRVAL, FATAL) are already written in `s`. There is no return (R169). -/
def raise (c : StatusCode) (s : State) : Answer := .next (s.setStatus c)

/-- A word port has exactly its 2N wires: n trit codes (20_memory.md R41, 30_encoding.md R52; log entry 6). -/
def fitBus (n : Nat) (p : Bus) : Bus := (p ++ List.replicate n 0#2).take n

/-- A binary port has exactly its B wires (R41; log entry 6). -/
def fitBin (b : Nat) (x : BinWord) : BinWord := ⟨b, x.bits.setWidth b⟩

/-- What the block captures at acceptance: `cmd`, `a`, `b`, `cin` and `x` as they stand on the ports (R41). -/
def capture (cfg : Config) (p : Drive) : Captured :=
  { cmd := p.cmd, a := fitBus cfg.n p.a, b := fitBus cfg.n p.b, cin := p.cin, x := fitBin cfg.b p.x }

/-- The latency of a captured command, less the one cycle every command takes (R189; log entry 4). -/
def latencyLess1 (cfg : Config) (c : Captured) : Nat := cfg.extraCycles c.cmd c.a c.b c.cin c.x

/-- The next clock cycle: the host's next move comes up. -/
def State.nextCycle (s : State) : State := { s with script := s.script.tail }

/-- A rising edge with rst = 1 (70_reset_and_hazards.md R180 to R182). -/
def resetEdge (s : State) : State := State.resetOf s.cfg s.script.tail

/-- A rising edge on which the block neither completes nor accepts: the registers keep their values, done is 0 (R32). -/
def idleEdge (s : State) : State := { s.nextCycle with done := false }

/-- A rising edge of a command in flight that is not its completion edge (R31, R189). -/
def waitEdge (s : State) : State := { idleEdge s with remaining := s.remaining - 1 }

/-- The acceptance edge (R41): BUSY becomes 1 and the command and its operands are captured. -/
def acceptEdge (s : State) : State :=
  { idleEdge s with
    busy := true
    captured := capture s.cfg s.drive
    remaining := latencyLess1 s.cfg (capture s.cfg s.drive) }

/-- The completion edge, on the state with the command's registers written: BUSY becomes 0, done 1 (R31, R32), and the
captured command is dropped (log entry 7). -/
def completionEdge (s : State) : State :=
  { s.nextCycle with busy := false, captured := Captured.none s.cfg, done := true, remaining := 0 }

/-- The completion edge after a meaning's answer. -/
def completeWith (a : Answer) : Answer :=
  match a with
  | .next t => .next (completionEdge t)
  | .fault f => .fault f
  | .refused r => .refused r

/-- Will a command offered in this cycle be accepted (10_state.md R32; 0 while rst = 1, 70_reset_and_hazards.md R180)? -/
def State.cmdReady (s : State) : Bool := !s.busy && !s.fatal && !s.drive.rst

/-- Is a command accepted on the coming rising edge (20_memory.md R41)? -/
def State.accepts (s : State) : Bool := s.cmdReady && s.drive.cmdValid

end Sys2Proof.Machine
end

