-- ==== Sys2Proof/Machine/Operands.lean ====
section
/-! DEFINITION. The operand forms of a command (30_encoding.md R61 "reads", 40_common.md R70, R71): a single trit code, a whole
word port, the binary port, and the range of a sub-range command. -/

namespace Sys2Proof.Machine

/-- The trits a bus carries; none if one of its codes is 10 (R52, R70, R71). -/
def decBus : Bus → Option Word
  | [] => some []
  | c :: p =>
    match dec c, decBus p with
    | some t, some w => some (t :: w)
    | _, _ => none

/-- The bus form of a word (R52). -/
def encWord (w : Word) : Bus := w.map enc

/-- The code of trit 0 of a word port (R61, "A[0]"). -/
def trit0 (p : Bus) : Code := p.headD 0#2

/-- Go on with the trit that a code carries, or end with ILLEGAL_TRIT_CODE (R70, R71, 60_exceptions.md R166). -/
def withTrit (c : Code) (s : State) (k : Trit → Answer) : Answer :=
  match dec c with
  | some t => k t
  | none => raise .illegalTritCode s

/-- Go on with the word that a port carries, or end with ILLEGAL_TRIT_CODE (R70, R71, R166). -/
def withWord (p : Bus) (s : State) (k : Word → Answer) : Answer :=
  match decBus p with
  | some w => k w
  | none => raise .illegalTritCode s

/-- X, the integer on the binary port (R53, R70). -/
def State.operandX (s : State) : Int := sval s.captured.x

/-- RangeValid(start, end) (43_subrange.md R110). -/
def rangeValid (n start stop : Nat) : Bool := decide (start ≤ stop ∧ stop < n)

/-- Go on if the range is valid, or end with RANGE_INVALID (R110, R113, R115). -/
def withRange (start stop : Nat) (s : State) (k : Answer) : Answer :=
  if rangeValid s.cfg.n start stop then k else raise .rangeInvalid s

/-- Wbits, the signed width that field W selects (R58). -/
def widthBits (b : Nat) : WidthSel → Nat
  | .portWidth => b
  | .w8 => 8
  | .w16 => 16
  | .w32 => 32

/-- The trit codes a command reads: the "reads" column of R61, spelled out by R71. -/
def readCodes (i : Instr) (c : Captured) : List Code :=
  match i with
  | .nop => []
  | .tadd => [trit0 c.a, trit0 c.b, c.cin]
  | .tneg => [trit0 c.a]
  | .tmul => [trit0 c.a, trit0 c.b]
  | .tfromint => []
  | .zero => []
  | .fromdigit => [trit0 c.a]
  | .frombin => []
  | .tobin => c.a
  | .sign => c.a
  | .iszero => c.a
  | .cmp => c.a ++ c.b
  | .rdrange _ _ _ => c.a
  | .wrrange _ _ => c.a
  | .addc => c.a ++ c.b ++ [c.cin]
  | .add => c.a ++ c.b
  | .sub => c.a ++ c.b
  | .neg => c.a
  | .abs => c.a
  | .shl _ => c.a
  | .mul => c.a ++ c.b
  | .divrem => c.a ++ c.b

end Sys2Proof.Machine
end

