-- ==== Sys2Proof/Machine/Arith.lean ====
section
/-! DEFINITION. ADDC, ADD, SUB, NEG, ABS, SHL (44_arith.md R122 to R130). Results wrap modulo 3^N; none of them raises a
condition of its own. -/

namespace Sys2Proof.Machine

/-- ADDC (R122): Y <- sum, T <- carry out of A + Bop + CIN. -/
def execAddc (s : State) : Answer :=
  withWord s.captured.a s fun a =>
  withWord s.captured.b s fun b =>
  withTrit s.captured.cin s fun c =>
  let (sum, cout) := fullAddWord a b c
  succeed ((s.setY sum).setT cout)

/-- ADD (R123): Y <- sum of A + Bop, the carry discarded. -/
def execAdd (s : State) : Answer :=
  withWord s.captured.a s fun a =>
  withWord s.captured.b s fun b =>
  succeed (s.setY (fullAddWord a b .zero).1)

/-- SUB (R124): Y <- sum of A + NegWord(Bop), the carry discarded. -/
def execSub (s : State) : Answer :=
  withWord s.captured.a s fun a =>
  withWord s.captured.b s fun b =>
  succeed (s.setY (fullAddWord a (negWord b) .zero).1)

/-- NEG (R126): Y <- NegWord(A). -/
def execNeg (s : State) : Answer :=
  withWord s.captured.a s fun a =>
  succeed (s.setY (negWord a))

/-- ABS (R128): Y <- AbsWord(A). -/
def execAbs (s : State) : Answer :=
  withWord s.captured.a s fun a =>
  succeed (s.setY (absWord a))

/-- SHL (R130): Y <- ShiftLeft(A, S). -/
def execShl (amount : Nat) (s : State) : Answer :=
  withWord s.captured.a s fun a =>
  succeed (s.setY (shiftLeft a amount))

end Sys2Proof.Machine
end

