-- ==== Sys2Proof/Machine/Convert.lean ====
section
/-! DEFINITION. Construction, conversion and ordering: ZERO, FROMDIGIT, FROMBIN, TOBIN, SIGN, ISZERO, CMP
(42_convert_order.md R97 to R103). -/

namespace Sys2Proof.Machine

/-- ZERO (R97): Y <- 0_N. -/
def execZero (s : State) : Answer := succeed (s.setY (zeroWord s.cfg.n))

/-- FROMDIGIT (R98): Y <- digit_N(A[0]). -/
def execFromdigit (s : State) : Answer :=
  withTrit (trit0 s.captured.a) s fun a =>
  succeed (s.setY (digitWord s.cfg.n a))

/-- FROMBIN (R99): Y <- FromNative(X), which wraps. -/
def execFrombin (s : State) : Answer := succeed (s.setY (fromNative s.cfg.n s.operandX))

/-- TOBIN (R100): Z <- sext_B(ToNative(A)). -/
def execTobin (s : State) : Answer :=
  withWord s.captured.a s fun a =>
  succeed (s.setZ (sext s.cfg.b (toNative a)))

/-- SIGN (R101): T <- Sign(A). -/
def execSign (s : State) : Answer :=
  withWord s.captured.a s fun a =>
  succeed (s.setT (signWord a))

/-- ISZERO (R102): ZF <- IsZero(A). -/
def execIszero (s : State) : Answer :=
  withWord s.captured.a s fun a =>
  succeed (s.setZF (isZeroWord a))

/-- CMP (R103): T <- Compare(A, Bop). -/
def execCmp (s : State) : Answer :=
  withWord s.captured.a s fun a =>
  withWord s.captured.b s fun b =>
  succeed (s.setT (compareWord a b))

end Sys2Proof.Machine
end

