-- ==== Sys2Proof/Machine/MulDiv.lean ====
section
/-! DEFINITION. MUL and DIVREM (45_muldiv.md R142, R149). -/

namespace Sys2Proof.Machine

/-- MUL (R142): Y <- MulWord(A, Bop). -/
def execMul (s : State) : Answer :=
  withWord s.captured.a s fun a =>
  withWord s.captured.b s fun b =>
  succeed (s.setY (mulWord a b))

/-- DIVREM (R149): Y <- quotient, R <- remainder; a zero divisor sets FATAL and raises DIV_BY_ZERO (60_exceptions.md R164). -/
def execDivrem (s : State) : Answer :=
  withWord s.captured.a s fun a =>
  withWord s.captured.b s fun b =>
  if isZeroWord b then raise .divByZero s.setFatal
  else
    let (q, r) := divRem s.cfg.divTentative a b
    succeed ((s.setY q).setR r)

end Sys2Proof.Machine
end

