-- ==== Sys2Proof/Machine/Subrange.lean ====
section
/-! DEFINITION. Sub-range extract and insert: RDRANGE, WRRANGE (43_subrange.md R113, R115). -/

namespace Sys2Proof.Machine

/-- RDRANGE (R113): Z <- sext_B of the sub-word's value; RANGE_INVALID, then VALUE_DOES_NOT_FIT. -/
def execRdrange (start stop : Nat) (w : WidthSel) (s : State) : Answer :=
  withWord s.captured.a s fun a =>
  withRange start stop s <|
  if fits (widthBits s.cfg.b w) (readRange a start stop) then
    succeed (s.setZ (sext s.cfg.b (readRange a start stop)))
  else raise .valueDoesNotFit s

/-- WRRANGE (R115): Y <- A with X's digits in trits start to end; RANGE_INVALID, then VALUE_DOES_NOT_FIT. -/
def execWrrange (start stop : Nat) (s : State) : Answer :=
  withWord s.captured.a s fun a =>
  withRange start stop s <|
  match writeRange a s.operandX start stop with
  | some w => succeed (s.setY w)
  | none => raise .valueDoesNotFit s

end Sys2Proof.Machine
end

