-- ==== Sys2Proof/Machine/Trit.lean ====
section
/-! DEFINITION. NOP (40_common.md R74) and the trit primitive: TADD, TNEG, TMUL, TFROMINT (41_trit.md R85 to R88). -/

namespace Sys2Proof.Machine

/-- NOP (R74): STATUS <- OK and nothing else. -/
def execNop (s : State) : Answer := succeed s

/-- TADD (R85): Y <- digit_N(sum), T <- carry of A[0] + Bop[0] + CIN. -/
def execTadd (s : State) : Answer :=
  withTrit (trit0 s.captured.a) s fun a =>
  withTrit (trit0 s.captured.b) s fun b =>
  withTrit s.captured.cin s fun c =>
  let (sum, carry) := tritFullAdd a b c
  succeed ((s.setY (digitWord s.cfg.n sum)).setT carry)

/-- TNEG (R86): Y <- digit_N(-A[0]). -/
def execTneg (s : State) : Answer :=
  withTrit (trit0 s.captured.a) s fun a =>
  succeed (s.setY (digitWord s.cfg.n (tritNeg a)))

/-- TMUL (R87): Y <- digit_N(A[0]·Bop[0]). -/
def execTmul (s : State) : Answer :=
  withTrit (trit0 s.captured.a) s fun a =>
  withTrit (trit0 s.captured.b) s fun b =>
  succeed (s.setY (digitWord s.cfg.n (tritMul a b)))

/-- TFROMINT (R88): Y <- digit_N(X), or INVALID_DIGIT with ERRVAL <- sext_B(X) (60_exceptions.md R161). -/
def execTfromint (s : State) : Answer :=
  match tritFromInt s.operandX with
  | some t => succeed (s.setY (digitWord s.cfg.n t))
  | none => raise .invalidDigit (s.setErrval (sext s.cfg.b s.operandX))

end Sys2Proof.Machine
end

