-- ==== Sys2Proof/Machine/Dispatch.lean ====
section
/-! DEFINITION. The dispatch: one arm per instruction, one direct call of its meaning. -/

namespace Sys2Proof.Machine

def exec (i : Instr) (s : State) : Host.Outcome State Fault Refusal :=
  match i with
  | .nop => Sys2Proof.Machine.execNop s
  | .tadd => Sys2Proof.Machine.execTadd s
  | .tneg => Sys2Proof.Machine.execTneg s
  | .tmul => Sys2Proof.Machine.execTmul s
  | .tfromint => Sys2Proof.Machine.execTfromint s
  | .zero => Sys2Proof.Machine.execZero s
  | .fromdigit => Sys2Proof.Machine.execFromdigit s
  | .frombin => Sys2Proof.Machine.execFrombin s
  | .tobin => Sys2Proof.Machine.execTobin s
  | .sign => Sys2Proof.Machine.execSign s
  | .iszero => Sys2Proof.Machine.execIszero s
  | .cmp => Sys2Proof.Machine.execCmp s
  | .rdrange start stop w => Sys2Proof.Machine.execRdrange start stop w s
  | .wrrange start stop => Sys2Proof.Machine.execWrrange start stop s
  | .addc => Sys2Proof.Machine.execAddc s
  | .add => Sys2Proof.Machine.execAdd s
  | .sub => Sys2Proof.Machine.execSub s
  | .neg => Sys2Proof.Machine.execNeg s
  | .abs => Sys2Proof.Machine.execAbs s
  | .shl amount => Sys2Proof.Machine.execShl amount s
  | .mul => Sys2Proof.Machine.execMul s
  | .divrem => Sys2Proof.Machine.execDivrem s

end Sys2Proof.Machine
end

