-- ==== Sys2Proof/Machine/Clock.lean ====
section
/-! DEFINITION. What one rising edge of `clk` does (20_memory.md R41, 70_reset_and_hazards.md R180 to R189): reset, completion of
the command in flight, waiting, acceptance, or nothing. -/

namespace Sys2Proof.Machine

/-- Execute(cmd, a, b, cin, x) (40_common.md R70) for the captured command: an illegal word raises ILLEGAL_COMMAND. -/
def execCaptured (s : State) : Answer :=
  match decode s.cfg.arithCap s.captured.cmd with
  | .ok i => exec i s
  | .error _ => raise .illegalCommand s

/-- One rising edge of `clk`. Reset wins over a completion and an acceptance at the same edge (R181); a command in flight
completes when its latency has passed (R189); a command offered to a ready block is accepted (R41), one offered to a
block that is not ready has no effect (R187). -/
def clockEdge (s : State) : Answer :=
  if s.drive.rst then .next (resetEdge s)
  else if s.busy then
    if s.remaining = 0 then completeWith (execCaptured s) else .next (waitEdge s)
  else if s.accepts then .next (acceptEdge s)
  else .next (idleEdge s)

/-- The command word `w` in flight, the coming edge its completion edge, and the host not asserting `rst` at it: what an
acceptance and the passing of the latency leave (log entry 9). -/
def placeCommand (s : State) (w : BitVec 32) : State :=
  { s with
    busy := true
    remaining := 0
    captured := { s.captured with cmd := w }
    script := { s.drive with rst := false } :: s.script.tail }

end Sys2Proof.Machine
end

