-- ==== Sys2Proof/Machine/Ports.lean ====
section
/-! DEFINITION. The output ports (20_memory.md R41) and the packing of a word bus as one number (30_encoding.md R52). Reading them
has no side effect (R43): they are functions of the state. -/

namespace Sys2Proof.Machine

/-- A bus of trit codes as one number, trit i in bits [2i+1:2i] (R52). -/
def busBits : Bus → Nat
  | [] => 0
  | c :: p => c.toNat + 4 * busBits p

/-- The n trit codes of a 2n-bit number (R52). -/
def busOfBits : Nat → Nat → Bus
  | 0, _ => []
  | n + 1, v => BitVec.ofNat 2 v :: busOfBits n (v / 4)

/-- The output ports of R41. -/
structure Outputs where
  cmdReady : Bool
  done : Bool
  y : Bus
  r : Bus
  t : Code
  z : BinWord
  zf : Bool
  status : BitVec 4
  errval : BinWord
  fatal : Bool
  deriving DecidableEq, Repr

/-- What a host sampling the output ports in this cycle sees (R41, R43). -/
def State.outputs (s : State) : Outputs :=
  { cmdReady := s.cmdReady
    done := s.done
    y := encWord s.y
    r := encWord s.r
    t := enc s.t
    z := s.z
    zf := s.zf
    status := s.status
    errval := s.errval
    fatal := s.fatal }

end Sys2Proof.Machine
end

