-- ==== Sys2Proof/Machine/Asm.lean ====
section
/-! DEFINITION. The host's side of a command: display (42_convert_order.md R104), the operand forms of the assembler notation
(30_encoding.md R66), issuing a command, and the pseudo-instructions (R67). No step depends on this file. -/

namespace Sys2Proof.Machine

/-- The character of a trit (R104). -/
def tritChar : Trit → Char
  | .neg => 'T'
  | .zero => '0'
  | .pos => '1'

/-- Display(w) (R104): N characters, the most significant trit first. -/
def display (w : Word) : String := String.ofList (w.reverse.map tritChar)

/-- A `<word>` operand of R66. -/
inductive WordOperand where
  /-- A decimal integer v, meaning tw_N(v). -/
  | value (v : Int)
  /-- A trit literal `0t…`, most significant trit first, padded with leading Zeros. -/
  | literal (digits : List Trit)
  /-- The current value of register Y, fed back. -/
  | regY
  /-- The current value of register R, fed back. -/
  | regR
  /-- A raw bus value `#0x…`. -/
  | raw (bits : Nat)
  deriving DecidableEq, Repr

/-- A `<trit>` operand of R66; register T is fed back to chain a carry (95_test_vectors.md P5). -/
inductive TritOperand where
  | value (t : Trit)
  | regT
  | raw (c : Code)
  deriving DecidableEq, Repr

/-- The bus a `<word>` operand drives. -/
def WordOperand.bus (s : State) : WordOperand → Bus
  | .value v => encWord (fromNative s.cfg.n v)
  | .literal digits => encWord ((digits.reverse ++ zeroWord s.cfg.n).take s.cfg.n)
  | .regY => encWord s.y
  | .regR => encWord s.r
  | .raw bits => busOfBits s.cfg.n bits

/-- The code a `<trit>` operand drives. -/
def TritOperand.code (s : State) : TritOperand → Code
  | .value t => enc t
  | .regT => enc s.t
  | .raw c => c

/-- One command with the operand values the host drives at acceptance; what is not listed is driven as 0 (R66). -/
structure Command where
  instr : Instr
  a : WordOperand := .value 0
  b : WordOperand := .value 0
  cin : TritOperand := .value .zero
  x : Int := 0
  deriving DecidableEq, Repr

/-- What the host drives to issue a command in this cycle (R66, 70_reset_and_hazards.md R191). -/
def Command.drive (c : Command) (s : State) : Drive :=
  { rst := false, cmdValid := true, cmd := encode c.instr, a := c.a.bus s, b := c.b.bus s, cin := c.cin.code s,
    x := sext s.cfg.b c.x }

/-- The pseudo-instructions (R67). -/
inductive Pseudo where
  | div (n d : WordOperand)
  | rem (n d : WordOperand)
  | mov (w : WordOperand)
  | inc (w : WordOperand)
  | dec (w : WordOperand)
  | clr
  deriving DecidableEq, Repr

/-- Each pseudo-instruction is exactly one command (R67). -/
def Pseudo.expand : Pseudo → Command
  | .div n d => { instr := .divrem, a := n, b := d }
  | .rem n d => { instr := .divrem, a := n, b := d }
  | .mov w => { instr := .shl 0, a := w }
  | .inc w => { instr := .addc, a := w, cin := .value .pos }
  | .dec w => { instr := .addc, a := w, cin := .value .neg }
  | .clr => { instr := .zero }

/-- What the host reads after a pseudo-instruction (R67): a word, and for INC and DEC the carry too. -/
structure PseudoResult where
  word : Word
  carry : Option Trit
  deriving DecidableEq, Repr

/-- The column "result the host reads" of R67: Y, for REM R instead, and for INC and DEC also T, the carry. -/
def Pseudo.result (s : State) : Pseudo → PseudoResult
  | .div _ _ => { word := s.y, carry := none }
  | .rem _ _ => { word := s.r, carry := none }
  | .mov _ => { word := s.y, carry := none }
  | .inc _ => { word := s.y, carry := some s.t }
  | .dec _ => { word := s.y, carry := some s.t }
  | .clr => { word := s.y, carry := none }

end Sys2Proof.Machine
end

