-- ==== Sys2Proof/Machine/Run.lean ====
section
/-! DEFINITION. A run and its end (70_reset_and_hazards.md R192, 60_exceptions.md R170): the block is watched cycle by cycle from the
clean entry, and the first cycle that decides the run decides it for good (log entry 5). -/

namespace Sys2Proof.Machine

/-- What the host can observe of a finished run (R192): the registers of R182's table but FATAL. -/
structure Observation where
  y : Word
  r : Word
  t : Trit
  z : BinWord
  zf : Bool
  status : BitVec 4
  errval : BinWord
  deriving DecidableEq, Repr

/-- The registers the host observes. -/
def State.observation (s : State) : Observation :=
  { y := s.y, r := s.r, t := s.t, z := s.z, zf := s.zf, status := s.status, errval := s.errval }

/-- The clean entry of R184: the state of R182 with reset released. -/
abbrev State.CleanEntry (s : State) : Prop := s = State.resetOf s.cfg s.script ∧ s.drive.rst = false

/-- How far a run has come: the commands accepted so far, in order, and whether the last of them has completed (log
entry 23). -/
structure Progress where
  issued : List Captured
  settled : Bool
  deriving DecidableEq, Repr

/-- The progress at the clean entry: no command accepted, none outstanding. DESIGN CHOICE (log entry 24): R192 does not say
whether the empty command sequence, which has no last command, ends; `settled` ends it successfully at the clean entry.
Unsafe for a claim about that run alone. -/
def Progress.start : Progress := { issued := [], settled := true }

/-- The progress after the edge from s to t. A command dropped by a reset stays uncompleted (R181). -/
def Progress.after (p : Progress) (s t : State) : Progress :=
  if s.accepts then { issued := p.issued ++ [capture s.cfg s.drive], settled := false }
  else if t.done then { p with settled := true }
  else p

/-- The end of R192 but for FATAL = 0: the sequence `cmds` has been issued, its last command has completed, and BUSY = 0. -/
def Progress.ended (p : Progress) (cmds : List Captured) (s : State) : Bool :=
  decide (p.issued = cmds) && p.settled && !s.busy

/-- What the first k edges from s decide of a run of the command sequence `cmds` (R192). The first cycle with FATAL = 1
makes it a fault, the first cycle that ends it gives the observation, and no later cycle is looked at: nothing the
host does afterwards, reset included, changes the answer (R170, R192). `.ok none`: the run is not over yet. -/
def verdictFrom (cmds : List Captured) : Nat → Progress → State → Except Fault (Option Observation)
  | 0, p, s =>
    if s.fatal then .error .fatalState
    else if p.ended cmds s then .ok (some s.observation)
    else .ok none
  | k + 1, p, s =>
    if s.fatal then .error .fatalState
    else if p.ended cmds s then .ok (some s.observation)
    else
      match step s with
      | .next t => verdictFrom cmds k (p.after s t) t
      | .fault f => .error f
      | .refused _ => .ok none

/-- A run of R192: an instance, the host's finite sequence of commands, and what the host drives to issue them. -/
structure HostRun where
  cfg : Config
  cmds : List Captured
  script : List Drive
  deriving DecidableEq, Repr

/-- Where a run starts: the state of R182. It is a clean entry if the host has released reset (R184). -/
def HostRun.start (h : HostRun) : State := State.resetOf h.cfg h.script

/-- What the first k edges of a run decide (R192). -/
def HostRun.verdict (h : HostRun) (k : Nat) : Except Fault (Option Observation) :=
  verdictFrom h.cmds k Progress.start h.start

end Sys2Proof.Machine
end

