-- ==== Sys2Proof/Safety.lean ====
section
/-! DEFINITION. The terms the statements use: the invariant of the state, what an operand port carries, the registers a
command may write, and the divider over the integers. -/

namespace Sys2Proof.Machine

/-- The invariant of the state: an instance that R8 allows, every register and captured operand of its width (10_state.md
R20, R31), STATUS one of the codes 0 to 6 (R28), FATAL set exactly while STATUS reads DIV_BY_ZERO (R30, 60_exceptions.md R170), no
command in flight in the fatal state or in the `done` cycle (R32), and nothing captured while BUSY = 0 (R31; that all-zero
wires stand for it is log entry 7). -/
abbrev State.Inv (s : State) : Prop :=
  s.cfg.Legal
  ∧ s.y.length = s.cfg.n ∧ s.r.length = s.cfg.n
  ∧ s.z.width = s.cfg.b ∧ s.errval.width = s.cfg.b
  ∧ s.captured.a.length = s.cfg.n ∧ s.captured.b.length = s.cfg.n ∧ s.captured.x.width = s.cfg.b
  ∧ s.status.toNat ≤ 6
  ∧ (s.fatal = true ↔ s.status = 4#4)
  ∧ (s.fatal = true → s.busy = false)
  ∧ (s.done = true → s.busy = false)
  ∧ (s.busy = false → s.captured = Captured.none s.cfg ∧ s.remaining = 0)

/-- The captured operand A is the word w of the instance's width, every code legal. -/
abbrev State.HasA (s : State) (w : Word) : Prop := s.captured.a = encWord w ∧ w.length = s.cfg.n

/-- The captured operand Bop is the word w of the instance's width, every code legal. -/
abbrev State.HasB (s : State) (w : Word) : Prop := s.captured.b = encWord w ∧ w.length = s.cfg.n

/-- The captured operand CIN is the trit t. -/
abbrev State.HasCin (s : State) (t : Trit) : Prop := s.captured.cin = enc t

/-- Trit 0 of the captured operand A is the trit t, whatever the other codes are. -/
abbrev State.HasA0 (s : State) (t : Trit) : Prop := s.captured.a.head? = some (enc t)

/-- Trit 0 of the captured operand Bop is the trit t, whatever the other codes are. -/
abbrev State.HasB0 (s : State) (t : Trit) : Prop := s.captured.b.head? = some (enc t)

/-- m is the index of the most significant non-zero trit of w (45_muldiv.md R143). -/
abbrev IsMsb (w : Word) (m : Nat) : Prop := w.getD m .zero ≠ .zero ∧ ∀ t ∈ w.drop (m + 1), t = .zero

/-- t is the sign of w (42_convert_order.md R91): its most significant non-zero trit, Zero if it has none. -/
abbrev IsSign (w : Word) (t : Trit) : Prop :=
  (t = .zero ∧ ∀ u ∈ w, u = .zero)
  ∨ (t ≠ .zero ∧ ∃ i : Nat, w[i]? = some t ∧ ∀ (j : Nat) (u : Trit), i < j → w[j]? = some u → u = .zero)

/-- (sum, cout) is what rippling TritFullAdd over the positions 0 to n-1 of a and b gives, from the carry cin (44_arith.md
R120): carries[i] is the carry into position i, and each position meets the contract of 41_trit.md R81. -/
def RippleSum (n : Nat) (a b : Word) (cin : Trit) (sum : Word) (cout : Trit) : Prop :=
  ∃ carries : Word, carries.length = n + 1 ∧ carries[0]? = some cin ∧ carries[n]? = some cout
    ∧ ∀ i : Nat, i < n → ∃ x y k d k' : Trit, a[i]? = some x ∧ b[i]? = some y ∧ carries[i]? = some k
        ∧ sum[i]? = some d ∧ carries[i + 1]? = some k' ∧ d.toInt + 3 * k'.toInt = x.toInt + y.toInt + k.toInt

/-- A command word is illegal (30_encoding.md R62), by its bits: OPC is bits 4..0, S bits 12..5, E bits 20..13, W bits 22..21,
RSV bits 31..23 (R54). -/
abbrev IllegalWord (arithCap : Bool) (w : BitVec 32) : Prop :=
  0x16 ≤ w.toNat % 2 ^ 5
  ∨ w.toNat / 2 ^ 23 ≠ 0
  ∨ (w.toNat / 2 ^ 5 % 2 ^ 8 ≠ 0 ∧ w.toNat % 2 ^ 5 ≠ 0x0C ∧ w.toNat % 2 ^ 5 ≠ 0x0D ∧ w.toNat % 2 ^ 5 ≠ 0x13)
  ∨ (w.toNat / 2 ^ 13 % 2 ^ 8 ≠ 0 ∧ w.toNat % 2 ^ 5 ≠ 0x0C ∧ w.toNat % 2 ^ 5 ≠ 0x0D)
  ∨ (w.toNat / 2 ^ 21 % 2 ^ 2 ≠ 0 ∧ w.toNat % 2 ^ 5 ≠ 0x0C)
  ∨ (arithCap = false ∧ 0x0E ≤ w.toNat % 2 ^ 5 ∧ w.toNat % 2 ^ 5 ≤ 0x15)

/-- The commands whose rules read the binary port X (R61). -/
def readsX : Instr → Bool
  | .tfromint | .frombin | .wrrange _ _ => true
  | .nop | .tadd | .tneg | .tmul | .zero | .fromdigit | .tobin | .sign | .iszero | .cmp | .rdrange _ _ _ => false
  | .addc | .add | .sub | .neg | .abs | .shl _ | .mul | .divrem => false

/-- The commands that write Y (10_state.md R20). -/
def writesY : Instr → Bool
  | .tadd | .tneg | .tmul | .tfromint | .zero | .fromdigit | .frombin | .wrrange _ _ => true
  | .addc | .add | .sub | .neg | .abs | .shl _ | .mul | .divrem => true
  | .nop | .tobin | .sign | .iszero | .cmp | .rdrange _ _ _ => false

/-- The commands that write R (R20): DIVREM. -/
def writesR (i : Instr) : Bool := decide (i = .divrem)

/-- The commands that write T (R20): TADD, ADDC, SIGN, CMP. -/
def writesT (i : Instr) : Bool := decide (i = .tadd ∨ i = .addc ∨ i = .sign ∨ i = .cmp)

/-- The commands that write Z (R20): TOBIN, RDRANGE. -/
def writesZ : Instr → Bool
  | .tobin | .rdrange _ _ _ => true
  | .nop | .tadd | .tneg | .tmul | .tfromint | .zero | .fromdigit | .frombin | .sign | .iszero | .cmp => false
  | .wrrange _ _ | .addc | .add | .sub | .neg | .abs | .shl _ | .mul | .divrem => false

/-- The commands that write ZF (R20): ISZERO. -/
def writesZF (i : Instr) : Bool := decide (i = .iszero)

/-- Over the integers: the trial result t of R144 if the reading accepts it against the remainder r (R145). -/
def trialInt (tent : DivTentative) (n : Nat) (t r : Int) : Option Int :=
  match tent with
  | .wrap => if (wrapN n t).natAbs ≤ r.natAbs then some (wrapN n t) else none
  | .exact => if t.natAbs ≤ maxValue n ∧ t.natAbs ≤ r.natAbs then some t else none

/-- Over the integers: one position of R144's loop, for the shifted divisor s. -/
def divStepInt (tent : DivTentative) (n : Nat) (s r : Int) : Int × Int :=
  match trialInt tent n (r - s) r with
  | some r' => (1, r')
  | none =>
    match trialInt tent n (r + s) r with
    | some r' => (-1, r')
    | none => (0, r)

/-- Over the integers: R144's loop over the positions k-1 down to 0; the quotient and the remainder. -/
def divLoopInt (tent : DivTentative) (n : Nat) (d : Int) : Nat → Int → Int × Int
  | 0, r => (0, r)
  | k + 1, r =>
    let (qk, r') := divStepInt tent n (d * 3 ^ k) r
    let (qs, rEnd) := divLoopInt tent n d k r'
    (qk * 3 ^ k + qs, rEnd)

end Sys2Proof.Machine
end

