-- ==== Sys2Proof/Certificates/Slice0/Obligations.lean ====
section
/-! DEFINITION. The statements for the provers. Operands are named by what the captured wires carry (`HasA`, `HasB`, `HasCin`:
legal codes of the instance's width; `HasA0`, `HasB0`: trit 0 alone). A conclusion `exec i s = .next { s with … }` says the
result and the frame at once: every field not named keeps its value. -/

open Sys2Proof Sys2Proof.Machine

/-! ## Reset, the clock and the handshake -/

/-- The state after a rising edge with `rst` = 1, whatever the state before it was: every register, BUSY and `done` at the value
of 70_reset_and_hazards.md R182's table; and `cmd_ready`, 0 while `rst` = 1 and 1 from the first cycle after its release. Three
clauses are the model's choices: that all-zero wires stand for 'no captured command' (log entry 7), that the host's
moves are a list of which the next comes up (log entry 1), and that the parameters stand in State (log entry 2). -/
def Obligations.ResetEdgeGivesTheResetState : Prop :=
  ∀ s : State, s.drive.rst = true →
    s.cmdReady = false ∧
    ∃ t, step s = .next t
      ∧ t.y = List.replicate s.cfg.n .zero ∧ t.r = List.replicate s.cfg.n .zero ∧ t.t = .zero
      ∧ t.z = ⟨s.cfg.b, 0#s.cfg.b⟩ ∧ t.zf = false ∧ t.status = 0#4 ∧ t.errval = ⟨s.cfg.b, 0#s.cfg.b⟩
      ∧ t.fatal = false ∧ t.busy = false ∧ t.captured = Captured.none s.cfg ∧ t.done = false
      ∧ t.cfg = s.cfg ∧ t.script = s.script.tail
      ∧ (t.drive.rst = false → t.cmdReady = true)

/-- R181: a reset edge erases a command in flight. Two blocks of one instance, in whatever states, one mid-command or at
its completion edge or offered a command and the other not, are the same after a reset edge, `done` not raised. -/
def Obligations.ResetErasesTheCommandInFlight : Prop :=
  ∀ s u : State, s.cfg = u.cfg → s.script.tail = u.script.tail → s.drive.rst = true → u.drive.rst = true →
    step s = step u ∧ ∃ t, step s = .next t ∧ t.done = false ∧ t.busy = false

/-- The invariant of the state holds right after reset, in every instance that R8 allows and in the machine's own reset
state. The invariant's last clause (nothing captured while BUSY = 0 means all-zero wires) is the model's choice, log
entry 7. -/
def Obligations.InvariantHoldsAtReset : Prop :=
  State.reset.Inv ∧ ∀ (cfg : Config) (script : List Drive), cfg.Legal → (State.resetOf cfg script).Inv

/-- Every step keeps the invariant: registers and captured operands of the instance's widths, STATUS one of the seven codes,
FATAL set exactly while STATUS reads DIV_BY_ZERO, no command in flight in the fatal state or the `done` cycle. -/
def Obligations.StepKeepsTheInvariant : Prop :=
  ∀ s t : State, s.Inv → step s = .next t → t.Inv

/-- No step faults or refuses, in any state: every rising edge has an effect, takes the host's next move and changes no
parameter of the instance. That the clock goes on in the fatal state, that the parameters stand in State and that the
host's moves are a list are the model's choices, log entries 5, 2 and 1. -/
def Obligations.EveryStepAnswersNext : Prop :=
  ∀ s : State, ∃ t, step s = .next t ∧ t.cfg = s.cfg ∧ t.script = s.script.tail

/-- A step runs the decoded instruction: at a completion edge step is exec of the decoded instruction, and around it
BUSY becomes 0, `done` 1, the captured command is dropped and the host's next move comes up. -/
def Obligations.StepRunsTheDecodedInstruction : Prop :=
  ∀ (s : State) (i : Instr), s.drive.rst = false → s.busy = true → s.remaining = 0 →
    decode s.cfg.arithCap s.captured.cmd = .ok i →
    ∀ u, exec i s = .next u →
      step s = .next { u with busy := false, done := true, captured := Captured.none u.cfg, remaining := 0,
                              script := u.script.tail }

/-- A placed command runs at the very next step: step at `withFetchWord` executes the instruction the word decodes to. That
placing a command stands for its acceptance is the model's choice, log entry 9. -/
def Obligations.PlacedWordRunsAtTheNextStep : Prop :=
  ∀ (s : State) (nbits w : Nat) (i : Instr),
    decode s.cfg.arithCap (BitVec.ofNat 32 (w % 2 ^ nbits)) = .ok i →
    ∀ u, exec i (s.withFetchWord nbits w) = .next u →
      ∃ t, step (s.withFetchWord nbits w) = .next t ∧ t.observation = u.observation ∧ t.fatal = u.fatal
        ∧ t.done = true ∧ t.busy = false

/-- 10_state.md R32: `cmd_ready` outside reset, and `done`: 1 exactly in the cycle after a completion edge, the fatal
completion included; after reset `done` is 0 and `cmd_ready` is 1 once reset is released. -/
def Obligations.DoneAndReadyAreThoseOfR32 : Prop :=
  (∀ s : State, s.drive.rst = false → (s.cmdReady = true ↔ s.busy = false ∧ s.fatal = false))
  ∧ (∀ s t : State, step s = .next t → (t.done = true ↔ s.drive.rst = false ∧ s.busy = true ∧ s.remaining = 0))
  ∧ (∀ s t : State, s.drive.rst = true → step s = .next t →
      t.done = false ∧ (t.drive.rst = false → t.cmdReady = true))

/-- 20_memory.md R41: an offered command is accepted exactly when `cmd_valid` = 1, `cmd_ready` = 1 and `rst` = 0, and the block
then holds `cmd`, `a`, `b`, `cin` and `x` as they stood on the ports at that edge; no register changes. -/
def Obligations.AcceptanceCapturesThePorts : Prop :=
  ∀ s t : State, s.busy = false → step s = .next t →
    (t.busy = true ↔ s.drive.cmdValid = true ∧ s.cmdReady = true ∧ s.drive.rst = false)
    ∧ (t.busy = true → s.drive.a.length = s.cfg.n → s.drive.b.length = s.cfg.n → s.drive.x.width = s.cfg.b →
        t.captured = { cmd := s.drive.cmd, a := s.drive.a, b := s.drive.b, cin := s.drive.cin, x := s.drive.x }
        ∧ t.observation = s.observation ∧ t.fatal = s.fatal)

/-- R187: a command offered while `cmd_ready` = 0 has no effect: the step is the one of a host that offers nothing and
drives any other values on the ports. -/
def Obligations.OfferWhileNotReadyHasNoEffect : Prop :=
  ∀ (s : State) (p : Drive), s.cmdReady = false → p.rst = s.drive.rst → p.cmdValid = false →
    step s = step { s with script := p :: s.script.tail }

/-- R190, with 10_state.md R31: a command in flight completes after finitely many cycles unless it is reset; at every edge
before that the registers keep their values and BUSY stays 1, and at the completion edge they become at once what
executing the captured command makes them. The number of cycles is the model's count of the open latency, log
entry 4. -/
def Obligations.CommandInFlightCompletes : Prop :=
  ∀ s u : State, s.busy = true → (∀ p ∈ s.script.take (s.remaining + 1), p.rst = false) →
    execCaptured s = .next u →
    (∀ k, k ≤ s.remaining → ∃ v, Host.Core.run Sys2Proof.core k s = .next v ∧ v.busy = true
        ∧ v.observation = s.observation ∧ v.fatal = s.fatal)
    ∧ ∃ t, Host.Core.run Sys2Proof.core (s.remaining + 1) s = .next t ∧ t.done = true ∧ t.busy = false
        ∧ t.observation = u.observation ∧ t.fatal = u.fatal ∧ t.cfg = s.cfg

/-- R189 with 20_memory.md R41: a command accepted at an edge completes LAT edges later, if no reset comes in between: the
registers are then what executing it on the operands captured at acceptance makes them. LAT - 1 is the open value
`latencyLess1`, log entry 4. -/
def Obligations.AcceptedCommandCompletesAfterItsLatency : Prop :=
  ∀ s u : State, s.accepts = true →
    (∀ p ∈ s.script.tail.take (latencyLess1 s.cfg (capture s.cfg s.drive) + 1), p.rst = false) →
    execCaptured { s with captured := capture s.cfg s.drive } = .next u →
    ∃ t, Host.Core.run Sys2Proof.core (1 + (latencyLess1 s.cfg (capture s.cfg s.drive) + 1)) s = .next t
      ∧ t.done = true ∧ t.busy = false ∧ t.observation = u.observation ∧ t.fatal = u.fatal ∧ t.cfg = s.cfg

/-- 60_exceptions.md R170: while FATAL = 1 no command is accepted, every register keeps its value and STATUS reads 4, for as
long as the host does not assert reset; a reset edge leaves the state. A run in which FATAL = 1 is a fault, whatever
sequence of commands it was to issue and however it came there; and no later step clears the fault: whatever the host
drives after the j edges that showed it, a reset edge included, the run is a fault at every later cycle. -/
def Obligations.FatalStateLastsUntilReset : Prop :=
  (∀ (k : Nat) (s : State), s.Inv → s.fatal = true → (∀ p ∈ s.script.take k, p.rst = false) →
    ∃ t, Host.Core.run Sys2Proof.core k s = .next t ∧ t.fatal = true ∧ t.observation = s.observation ∧ t.status = 4#4
      ∧ t.cmdReady = false ∧ t.busy = false)
  ∧ (∀ s t : State, s.drive.rst = true → step s = .next t → t.fatal = false)
  ∧ (∀ (cmds : List Captured) (k : Nat) (p : Progress) (s : State), s.fatal = true →
    verdictFrom cmds k p s = .error .fatalState)
  ∧ (∀ (cmds : List Captured) (j k : Nat) (p : Progress) (s : State) (rest : List Drive), j ≤ s.script.length → j ≤ k →
    verdictFrom cmds j p s = .error .fatalState →
    verdictFrom cmds k p { s with script := s.script.take j ++ rest } = .error .fatalState)

/-! ## Encodings -/

/-- A few command words, written out from R54 and R61, decode to what they stand for. -/
def Obligations.SampleWordsDecode : Prop :=
  decode true 0x00000000#32 = .ok .nop ∧ decode true 0x00000004#32 = .ok .tfromint
  ∧ decode true 0x00000007#32 = .ok .frombin ∧ decode true 0x0062E00C#32 = .ok (.rdrange 0 23 .w32)
  ∧ decode true 0x0000402D#32 = .ok (.wrrange 1 2) ∧ decode true 0x00001FF3#32 = .ok (.shl 255)
  ∧ decode true 0x00000015#32 = .ok .divrem

/-- Decode and encode agree: the command word of a well-formed instruction decodes to it, in every instance that has it. -/
def Obligations.DecodeOfEncode : Prop :=
  ∀ (cap : Bool) (i : Instr), i.WellFormed = true → (cap = true ∨ isArith i = false) → decode cap (encode i) = .ok i

/-- Every legal command word is the command word of the one instruction it decodes to: no bit of it is dropped. -/
def Obligations.EncodeOfDecode : Prop :=
  ∀ (cap : Bool) (w : BitVec 32) (i : Instr), decode cap w = .ok i → encode i = w ∧ i.WellFormed = true

/-- 30_encoding.md R62: the command words that do not decode are exactly those with a reserved opcode, RSV bits set, a non-zero
unused field, or an arithmetic opcode where ARITH_CAP = false. -/
def Obligations.IllegalWordsAreThoseOfR62 : Prop :=
  ∀ (cap : Bool) (w : BitVec 32), (∃ e, decode cap w = .error e) ↔ IllegalWord cap w

/-- 60_exceptions.md R165: an illegal command completes with STATUS = 5 (ILLEGAL_COMMAND) and changes nothing else. -/
def Obligations.IllegalCommandWritesOnlyStatus : Prop :=
  ∀ s : State, s.drive.rst = false → s.busy = true → s.remaining = 0 → IllegalWord s.cfg.arithCap s.captured.cmd →
    ∃ t, step s = .next t ∧ t.observation = { s.observation with status := 5#4 } ∧ t.fatal = s.fatal
      ∧ t.busy = false ∧ t.done = true ∧ t.cfg = s.cfg

/-- R60, R61: every legal command word matches exactly one row of the opcode map under that row's mask, the row of its
instruction; and a word that matches a row is legal. -/
def Obligations.LegalWordsMatchExactlyOneRow : Prop :=
  (∀ (w : BitVec 32) (i : Instr), decode true w = .ok i →
    ∃ row ∈ opcodeMap, row.mnemonic = mnemonicOf i ∧ w &&& row.mask = row.pattern
      ∧ ∀ other ∈ opcodeMap, w &&& other.mask = other.pattern → other = row)
  ∧ (∀ (w : BitVec 32) (row : OpcodeRow), row ∈ opcodeMap → w &&& row.mask = row.pattern →
    ∃ i, decode true w = .ok i ∧ mnemonicOf i = row.mnemonic)

/-- R52: trit i of a word stands in bits [2i+1:2i] of its bus, which has 2N bits; the all-Zero word is the all-zero bus; the
examples 13 and -13; and the bus reads back. -/
def Obligations.WordPackingIsThatOfR52 : Prop :=
  (∀ w : Word, busBits (encWord w) < 2 ^ (2 * w.length)
    ∧ (∀ (i : Nat) (t : Trit), w[i]? = some t → busBits (encWord w) / 2 ^ (2 * i) % 2 ^ 2 = (enc t).toNat)
    ∧ decBus (busOfBits w.length (busBits (encWord w))) = some w)
  ∧ (∀ n, busBits (encWord (List.replicate n Trit.zero)) = 0)
  ∧ busBits (encWord [.pos, .pos, .pos, .zero, .zero, .zero]) = 0x015
  ∧ busBits (encWord [.neg, .neg, .neg, .zero, .zero, .zero]) = 0x03F

/-- 10_state.md R34: a word's value lies in [-M, M], and two words of one width with the same value are the same trits. -/
def Obligations.WordsAreUniqueForTheirValue : Prop :=
  (∀ w : Word, (val w).natAbs ≤ maxValue w.length)
  ∧ (∀ v w : Word, v.length = w.length → val v = val w → v = w)

/-! ## Every command -/

/-- 10_state.md R33: the output ports never carry the code 10. -/
def Obligations.OutputsNeverCarryTheIllegalCode : Prop :=
  ∀ s : State, 0b10#2 ∉ s.outputs.y ∧ 0b10#2 ∉ s.outputs.r ∧ s.outputs.t ≠ 0b10#2

/-- No instruction stops the machine: exec answers a next state for every instruction, well-formed or not, in every state. -/
def Obligations.EveryCommandAnswersNext : Prop :=
  ∀ (i : Instr) (s : State), ∃ t, exec i s = .next t

/-- 40_common.md R72: the frame of every command. It writes a register only if its "writes" column names it and it ends with
STATUS = 0; ERRVAL only with INVALID_DIGIT, FATAL only with DIV_BY_ZERO; the hidden state, which the clock edge changes,
is untouched. -/
def Obligations.CommandsWriteOnlyTheirRegisters : Prop :=
  ∀ (i : Instr) (s t : State), exec i s = .next t →
    (writesY i = false ∨ t.status ≠ 0#4 → t.y = s.y)
    ∧ (writesR i = false ∨ t.status ≠ 0#4 → t.r = s.r)
    ∧ (writesT i = false ∨ t.status ≠ 0#4 → t.t = s.t)
    ∧ (writesZ i = false ∨ t.status ≠ 0#4 → t.z = s.z)
    ∧ (writesZF i = false ∨ t.status ≠ 0#4 → t.zf = s.zf)
    ∧ (i ≠ .tfromint ∨ t.status ≠ 1#4 → t.errval = s.errval)
    ∧ (i ≠ .divrem ∨ t.status ≠ 4#4 → t.fatal = s.fatal)
    ∧ t.busy = s.busy ∧ t.captured = s.captured ∧ t.done = s.done ∧ t.remaining = s.remaining ∧ t.cfg = s.cfg
    ∧ t.script = s.script

/-- 60_exceptions.md R160: every completed command writes one of the codes 0 to 6, each raised by the commands the table names
and with the extra state it names; no condition writes a destination register; the codes 7 to 15 are never written. -/
def Obligations.StatusCodesAreThoseOfR160 : Prop :=
  ∀ s t : State, execCaptured s = .next t →
    ((t.status = 5#4 ∧ IllegalWord s.cfg.arithCap s.captured.cmd)
      ∨ ∃ i, decode s.cfg.arithCap s.captured.cmd = .ok i ∧
        (t.status = 0#4
        ∨ (t.status = 1#4 ∧ i = .tfromint ∧ t.errval = ⟨s.cfg.b, BitVec.ofInt s.cfg.b s.operandX⟩)
        ∨ ((t.status = 2#4 ∨ t.status = 3#4) ∧ ((∃ a b w, i = .rdrange a b w) ∨ ∃ a b, i = .wrrange a b))
        ∨ (t.status = 4#4 ∧ i = .divrem ∧ t.fatal = true)
        ∨ (t.status = 6#4 ∧ 0b10#2 ∈ readCodes i s.captured)))
    ∧ (t.status ≠ 0#4 → t.y = s.y ∧ t.r = s.r ∧ t.t = s.t ∧ t.z = s.z ∧ t.zf = s.zf)
    ∧ (t.status ≠ 1#4 → t.errval = s.errval) ∧ (t.status ≠ 4#4 → t.fatal = s.fatal)

/-- R166, with 40_common.md R71: a command that reads a trit coded 10 ends with STATUS = 6 and no other effect, whatever other
condition holds; and no other command ends so. -/
def Obligations.IllegalTritCodeIsRefused : Prop :=
  ∀ (i : Instr) (s : State),
    (0b10#2 ∈ readCodes i s.captured → exec i s = .next { s with status := 6#4 })
    ∧ (0b10#2 ∉ readCodes i s.captured → ∀ t, exec i s = .next t → t.status ≠ 6#4)

/-- R71: codes a command does not read are ignored, and so is X where its rule does not use it: captures that agree on
what the command reads give the same registers. -/
def Obligations.UnreadPortsHaveNoEffect : Prop :=
  ∀ (i : Instr) (s : State) (c : Captured),
    readCodes i c = readCodes i s.captured → c.a.length = s.captured.a.length →
    (readsX i = true → c.x = s.captured.x) →
    ∃ t, exec i s = .next t ∧ exec i { s with captured := c } = .next { t with captured := c }

/-! ## NOP and the trit primitive -/

/-- R74: NOP writes STATUS only; with any bit besides OPC set its word is no NOP but an illegal command. -/
def Obligations.NopOnlyClearsStatus : Prop :=
  (∀ s : State, exec .nop s = .next { s with status := 0#4 })
  ∧ (∀ (cap : Bool) (w : BitVec 32), w.toNat % 2 ^ 5 = 0 →
      (w = 0#32 → decode cap w = .ok .nop) ∧ (w ≠ 0#32 → ∃ e, decode cap w = .error e))

/-- 41_trit.md R85 with the contract of R81: Y <- digit_N(sum), T <- carry, sum + 3·carry = A[0] + Bop[0] + CIN; trits 1 to N-1
are neither used nor checked. -/
def Obligations.TaddAddsThreeTrits : Prop :=
  decode true 0x00000001#32 = .ok .tadd
  ∧ ∀ (s : State) (a b c : Trit), s.HasA0 a → s.HasB0 b → s.HasCin c →
    ∃ sum carry : Trit,
      exec .tadd s = .next { s with y := sum :: List.replicate (s.cfg.n - 1) .zero, t := carry, status := 0#4 }
      ∧ sum.toInt + 3 * carry.toInt = a.toInt + b.toInt + c.toInt

/-- R86, R87 and 42_convert_order.md R98: TNEG, TMUL and FROMDIGIT write digit_N of -A[0], of A[0]·Bop[0] and of A[0]; TNEG and
FROMDIGIT read no other trit, TMUL only trit 0 of each. -/
def Obligations.TritCommandsWriteOneDigit : Prop :=
  decode true 0x00000002#32 = .ok .tneg ∧ decode true 0x00000003#32 = .ok .tmul ∧ decode true 0x00000006#32 = .ok .fromdigit
  ∧ (∀ (s : State) (a : Trit), s.HasA0 a →
    ∃ u : Trit, exec .tneg s = .next { s with y := u :: List.replicate (s.cfg.n - 1) .zero, status := 0#4 }
      ∧ u.toInt = -a.toInt)
  ∧ (∀ (s : State) (a b : Trit), s.HasA0 a → s.HasB0 b →
    ∃ u : Trit, exec .tmul s = .next { s with y := u :: List.replicate (s.cfg.n - 1) .zero, status := 0#4 }
      ∧ u.toInt = a.toInt * b.toInt)
  ∧ (∀ (s : State) (a : Trit), s.HasA0 a →
    exec .fromdigit s = .next { s with y := a :: List.replicate (s.cfg.n - 1) .zero, status := 0#4 })

/-- R88: X in {-1, 0, 1} gives Y <- digit_N(X); any other X gives INVALID_DIGIT with ERRVAL <- sext_B(X), which is the
captured X itself. -/
def Obligations.TfromintChecksTheDigit : Prop :=
  decode true 0x00000004#32 = .ok .tfromint
  ∧ ∀ s : State,
    (∀ u : Trit, s.operandX = u.toInt →
      exec .tfromint s = .next { s with y := u :: List.replicate (s.cfg.n - 1) .zero, status := 0#4 })
    ∧ (s.captured.x.width = s.cfg.b → s.operandX ≠ -1 → s.operandX ≠ 0 → s.operandX ≠ 1 →
      exec .tfromint s = .next { s with errval := s.captured.x, status := 1#4 })

/-! ## Construction, conversion and ordering -/

/-- R97: Y <- 0_N. -/
def Obligations.ZeroClearsY : Prop :=
  decode true 0x00000005#32 = .ok .zero
  ∧ ∀ s : State, exec .zero s = .next { s with y := List.replicate s.cfg.n .zero, status := 0#4 }

/-- The converter wraps: FROMBIN completes for every X, with the word of value wrap_N(X). That the digits of R94 have this
value is the spec's own inference (42_convert_order.md, after R95: "Its value is `val(FromNative(v)) = wrap_N(v)`"). -/
def Obligations.FrombinWrapsModuloTheSpan : Prop :=
  ∀ s : State, ∃ w : Word, exec .frombin s = .next { s with y := w, status := 0#4 }
    ∧ w.length = s.cfg.n ∧ val w = wrapN s.cfg.n s.operandX

/-- R100: Z <- sext_B of the value of A, and in an instance of R8 that value always fits. -/
def Obligations.TobinGivesTheValue : Prop :=
  decode true 0x00000008#32 = .ok .tobin
  ∧ ∀ (s : State) (a : Word), s.HasA a →
    ∃ z : BinWord, exec .tobin s = .next { s with z := z, status := 0#4 } ∧ z = ⟨s.cfg.b, BitVec.ofInt s.cfg.b (val a)⟩
      ∧ (s.cfg.Legal → sval z = val a)

/-- R101 with R91: T <- the most significant non-zero trit of A, Zero if the whole word is zero. -/
def Obligations.SignIsTheTopNonZeroTrit : Prop :=
  decode true 0x00000009#32 = .ok .sign
  ∧ ∀ (s : State) (a : Word), s.HasA a →
    ∃ t : Trit, exec .sign s = .next { s with t := t, status := 0#4 } ∧ IsSign a t

/-- R102 with R92: ZF <- 1 iff every trit of A is Zero. -/
def Obligations.IszeroTestsEveryTrit : Prop :=
  decode true 0x0000000A#32 = .ok .iszero
  ∧ ∀ (s : State) (a : Word), s.HasA a →
    ∃ f : Bool, exec .iszero s = .next { s with zf := f, status := 0#4 } ∧ (f = true ↔ ∀ u ∈ a, u = .zero)

/-- R103 with R93: T <- the order of the trits at the most significant index where A and Bop differ, 0 if they are equal. -/
def Obligations.CmpDecidesAtTheTopDifference : Prop :=
  decode true 0x0000000B#32 = .ok .cmp
  ∧ ∀ (s : State) (a b : Word), s.HasA a → s.HasB b →
    ∃ t : Trit, exec .cmp s = .next { s with t := t, status := 0#4 }
      ∧ ((t = .zero ∧ a = b)
        ∨ ∃ (i : Nat) (x y : Trit), a[i]? = some x ∧ b[i]? = some y ∧ (∀ j : Nat, i < j → a[j]? = b[j]?)
          ∧ ((t = .pos ∧ y.toInt < x.toInt) ∨ (t = .neg ∧ x.toInt < y.toInt)))

/-- The order, sign and zero laws of 42_convert_order.md section 4, which the spec derives: T and ZF read the integer values. -/
def Obligations.SignZeroAndOrderReadTheValues : Prop :=
  ∀ (s : State) (a b : Word), s.HasA a → s.HasB b →
    ∃ t u : Trit, ∃ f : Bool,
      exec .sign s = .next { s with t := t, status := 0#4 } ∧ t.toInt = (val a).sign
      ∧ exec .iszero s = .next { s with zf := f, status := 0#4 } ∧ (f = true ↔ val a = 0)
      ∧ exec .cmp s = .next { s with t := u, status := 0#4 } ∧ u.toInt = (val a - val b).sign

/-- 42_convert_order.md section 4, the round trip: FROMBIN then TOBIN of the fed-back Y gives v again, for v in [-M, M]. -/
def Obligations.BinaryRoundTrip : Prop :=
  ∀ s t u : State, s.cfg.Legal → s.operandX.natAbs ≤ maxValue s.cfg.n → exec .frombin s = .next t →
    u.cfg = s.cfg → u.captured.a = encWord t.y →
    ∃ z : BinWord, exec .tobin u = .next { u with z := z, status := 0#4 } ∧ sval z = s.operandX

/-! ## Sub-ranges -/

/-- 43_subrange.md R113 with R110 to R112: RANGE_INVALID unless start <= end < N, then VALUE_DOES_NOT_FIT unless the value of trits
start to end fits the width W selects, else Z <- sext_B of it; the word is 0x0C | S<<5 | E<<13 | W<<21. -/
def Obligations.RdrangeReadsTheSpan : Prop :=
  (∀ (sf ef : BitVec 8) (wf : BitVec 2),
    decode true (0x0C#32 ||| sf.setWidth 32 <<< 5 ||| ef.setWidth 32 <<< 13 ||| wf.setWidth 32 <<< 21)
      = .ok (.rdrange sf.toNat ef.toNat (widthOfField wf)))
  ∧ ∀ (s : State) (a : Word) (start stop : Nat) (w : WidthSel), s.HasA a →
    (¬ (start ≤ stop ∧ stop < s.cfg.n) → exec (.rdrange start stop w) s = .next { s with status := 2#4 })
    ∧ (start ≤ stop → stop < s.cfg.n →
      ∀ v : Int, v = val ((a.drop start).take (stop - start + 1)) →
      ∀ wb : Nat, wb = (match w with | .portWidth => s.cfg.b | .w8 => 8 | .w16 => 16 | .w32 => 32) →
        (-(2 ^ (wb - 1)) ≤ v ∧ v ≤ 2 ^ (wb - 1) - 1 →
          exec (.rdrange start stop w) s = .next { s with z := ⟨s.cfg.b, BitVec.ofInt s.cfg.b v⟩, status := 0#4 })
        ∧ (¬ (-(2 ^ (wb - 1)) ≤ v ∧ v ≤ 2 ^ (wb - 1) - 1) →
          exec (.rdrange start stop w) s = .next { s with status := 3#4 }))

/-- With W = 0 the width check never fails in an instance of R8, and Z reads as the span's value (43_subrange.md section 1,
"With Wbits = B the check never fails", which the spec derives). -/
def Obligations.RdrangeOfPortWidthNeverOverflows : Prop :=
  ∀ (s : State) (a : Word) (start stop : Nat), s.cfg.Legal → s.HasA a → start ≤ stop → stop < s.cfg.n →
    ∃ z : BinWord, exec (.rdrange start stop .portWidth) s = .next { s with z := z, status := 0#4 }
      ∧ sval z = val ((a.drop start).take (stop - start + 1))

/-- WRRANGE: RANGE_INVALID unless start <= end < N; VALUE_DOES_NOT_FIT iff |X| > (3^L - 1)/2, nothing else written; otherwise
Y is A with the span's trits replaced by those of value X. That X fits iff |X| <= (3^L - 1)/2 is the spec's own inference
(43_subrange.md, end of R114). The word is 0x0D | S<<5 | E<<13. -/
def Obligations.WrrangeReplacesTheSpan : Prop :=
  (∀ sf ef : BitVec 8, decode true (0x0D#32 ||| sf.setWidth 32 <<< 5 ||| ef.setWidth 32 <<< 13)
      = .ok (.wrrange sf.toNat ef.toNat))
  ∧ ∀ (s : State) (a : Word) (start stop : Nat), s.HasA a →
    (¬ (start ≤ stop ∧ stop < s.cfg.n) → exec (.wrrange start stop) s = .next { s with status := 2#4 })
    ∧ (start ≤ stop → stop < s.cfg.n → s.operandX.natAbs ≤ maxValue (stop - start + 1) →
        ∃ w : Word, exec (.wrrange start stop) s = .next { s with y := w, status := 0#4 }
          ∧ w.length = s.cfg.n ∧ w.take start = a.take start ∧ w.drop (stop + 1) = a.drop (stop + 1)
          ∧ val ((w.drop start).take (stop - start + 1)) = s.operandX)
    ∧ (start ≤ stop → stop < s.cfg.n → maxValue (stop - start + 1) < s.operandX.natAbs →
        exec (.wrrange start stop) s = .next { s with status := 3#4 })

/-- 43_subrange.md section 2: what WRRANGE inserts, RDRANGE with W = 0 reads back from the fed-back Y, and a disjoint span
of it reads as it did in A. -/
def Obligations.SubrangeRoundTrip : Prop :=
  ∀ (s t u : State) (a : Word) (start stop start' stop' : Nat), s.cfg.Legal → s.HasA a →
    exec (.wrrange start stop) s = .next t → t.status = 0#4 → u.cfg = s.cfg → u.captured.a = encWord t.y →
    (∃ z : BinWord, exec (.rdrange start stop .portWidth) u = .next { u with z := z, status := 0#4 }
      ∧ sval z = s.operandX)
    ∧ (start' ≤ stop' → stop' < s.cfg.n → stop' < start ∨ stop < start' →
      ∃ z : BinWord, exec (.rdrange start' stop' .portWidth) u = .next { u with z := z, status := 0#4 }
        ∧ exec (.rdrange start' stop' .portWidth) s = .next { s with z := z, status := 0#4 })

/-! ## Arithmetic -/

/-- 44_arith.md R122 with R120: ADDC ripples TritFullAdd from index 0 to N-1, starting from the carry CIN; the last carry goes
to T. -/
def Obligations.AddcRipplesTheCarry : Prop :=
  decode true 0x0000000E#32 = .ok .addc
  ∧ ∀ (s : State) (a b : Word) (c : Trit), s.HasA a → s.HasB b → s.HasCin c →
    ∃ (sum : Word) (cout : Trit), exec .addc s = .next { s with y := sum, t := cout, status := 0#4 }
      ∧ sum.length = s.cfg.n ∧ RippleSum s.cfg.n a b c sum cout

/-- The adder law, which the spec derives (44_arith.md, "Adder law"): val(sum) + cout·3^N is the exact sum, val(sum) its wrap,
and the carry is non-zero exactly when the exact sum leaves [-M, M]. -/
def Obligations.AddcIsExactWithItsCarry : Prop :=
  ∀ (s : State) (a b : Word) (c : Trit), s.HasA a → s.HasB b → s.HasCin c →
    ∃ (sum : Word) (cout : Trit), exec .addc s = .next { s with y := sum, t := cout, status := 0#4 }
      ∧ val sum + cout.toInt * 3 ^ s.cfg.n = val a + val b + c.toInt
      ∧ val sum = wrapN s.cfg.n (val a + val b + c.toInt)
      ∧ (cout ≠ .zero ↔ maxValue s.cfg.n < (val a + val b + c.toInt).natAbs)

/-- R123: ADD ripples with the carry in 0 and discards the carry out: T keeps its value. -/
def Obligations.AddRipplesFromCarryZero : Prop :=
  decode true 0x0000000F#32 = .ok .add
  ∧ ∀ (s : State) (a b : Word), s.HasA a → s.HasB b →
    ∃ (sum : Word) (cout : Trit), exec .add s = .next { s with y := sum, status := 0#4 }
      ∧ sum.length = s.cfg.n ∧ RippleSum s.cfg.n a b .zero sum cout

/-- R124: SUB is the addition of A and the trit by trit negation of Bop; the carry out is discarded, T keeps its value. -/
def Obligations.SubRipplesTheNegation : Prop :=
  decode true 0x00000010#32 = .ok .sub
  ∧ ∀ (s : State) (a b b' : Word), s.HasA a → s.HasB b → b'.map Trit.toInt = b.map (fun t => -t.toInt) →
    ∃ (sum : Word) (cout : Trit), exec .sub s = .next { s with y := sum, status := 0#4 }
      ∧ sum.length = s.cfg.n ∧ RippleSum s.cfg.n a b' .zero sum cout

/-- ADD and SUB wrap modulo 3^N (44_arith.md section 2, which the spec derives). -/
def Obligations.AddAndSubWrapModuloTheSpan : Prop :=
  ∀ (s : State) (a b : Word), s.HasA a → s.HasB b →
    ∃ v w : Word, exec .add s = .next { s with y := v, status := 0#4 }
      ∧ exec .sub s = .next { s with y := w, status := 0#4 }
      ∧ v.length = s.cfg.n ∧ val v = wrapN s.cfg.n (val a + val b)
      ∧ w.length = s.cfg.n ∧ val w = wrapN s.cfg.n (val a - val b)

/-- R126 with R125: NEG negates every trit where it stands, and NEG of the fed-back result gives A again. -/
def Obligations.NegNegatesEveryTrit : Prop :=
  decode true 0x00000011#32 = .ok .neg
  ∧ ∀ (s : State) (a : Word), s.HasA a →
    ∃ w : Word, exec .neg s = .next { s with y := w, status := 0#4 }
      ∧ w.map Trit.toInt = a.map (fun t => -t.toInt)
      ∧ ∀ u : State, u.captured.a = encWord w → exec .neg u = .next { u with y := a, status := 0#4 }

/-- NEG and ABS are exact, with no overflow case (44_arith.md section 1, which the spec derives). -/
def Obligations.NegAndAbsAreExact : Prop :=
  ∀ (s : State) (a : Word), s.HasA a →
    ∃ v w : Word, exec .neg s = .next { s with y := v, status := 0#4 } ∧ v.length = s.cfg.n ∧ val v = -val a
      ∧ exec .abs s = .next { s with y := w, status := 0#4 } ∧ w.length = s.cfg.n ∧ val w = |val a|

/-- R128 with R127: ABS negates every trit of A if the sign of A is Neg, else it gives A itself. -/
def Obligations.AbsNegatesOnlyNegativeWords : Prop :=
  decode true 0x00000012#32 = .ok .abs
  ∧ ∀ (s : State) (a : Word) (g : Trit), s.HasA a → IsSign a g →
    ∃ w : Word, exec .abs s = .next { s with y := w, status := 0#4 }
      ∧ (g = .neg → w.map Trit.toInt = a.map (fun t => -t.toInt)) ∧ (g ≠ .neg → w = a)

/-- R130 with R129: SHL moves trit i to index i + S, Zeros below, every trit past index N-1 lost; S >= N gives 0_N; T is not
written. The word is 0x13 | S<<5. -/
def Obligations.ShlMovesTheTrits : Prop :=
  (∀ sf : BitVec 8, decode true (0x13#32 ||| sf.setWidth 32 <<< 5) = .ok (.shl sf.toNat))
  ∧ ∀ (s : State) (a : Word) (k : Nat), s.HasA a →
    ∃ w : Word, exec (.shl k) s = .next { s with y := w, status := 0#4 } ∧ w.length = s.cfg.n
      ∧ ∀ i : Nat, i < s.cfg.n → w[i]? = if i < k then some .zero else a[i - k]?

/-- SHL multiplies by 3^S and wraps (44_arith.md, after R129, which the spec derives). -/
def Obligations.ShlMultipliesByAPowerOfThree : Prop :=
  ∀ (s : State) (a : Word) (k : Nat), s.HasA a →
    ∃ w : Word, exec (.shl k) s = .next { s with y := w, status := 0#4 } ∧ val w = wrapN s.cfg.n (val a * 3 ^ k)

/-! ## Multiply and divide -/

/-- The multiplier law, which the spec derives (45_muldiv.md section 1): MUL completes with the word of value
wrap_N(A·Bop). -/
def Obligations.MulWrapsModuloTheSpan : Prop :=
  ∀ (s : State) (a b : Word), s.HasA a → s.HasB b →
    ∃ w : Word, exec .mul s = .next { s with y := w, status := 0#4 }
      ∧ w.length = s.cfg.n ∧ val w = wrapN s.cfg.n (val a * val b)

/-- 60_exceptions.md R164: a zero divisor writes STATUS = 4 and FATAL = 1, no destination, and the run is then a fault. -/
def Obligations.ZeroDivisorIsFatal : Prop :=
  ∀ (s : State) (a b : Word), s.HasA a → s.HasB b → (∀ t ∈ b, t = .zero) →
    ∃ t, exec .divrem s = .next t ∧ t = { s with fatal := true, status := 4#4 }
      ∧ ∀ (cmds : List Captured) (k : Nat) (p : Progress), verdictFrom cmds k p t = .error .fatalState

/-- DIVREM computes, trit by trit, what the loop of R144 computes over the integers, under either reading of R145: the
trials are r - d·3^i and r + d·3^i, wrapped or exact, for the positions N-m-1 down to 0. -/
def Obligations.DivremRefinesTheIntegerLoop : Prop :=
  ∀ (s : State) (a b : Word) (m : Nat), s.HasA a → s.HasB b → IsMsb b m →
    ∃ q r : Word, exec .divrem s = .next { s with y := q, r := r, status := 0#4 }
      ∧ q.length = s.cfg.n ∧ r.length = s.cfg.n
      ∧ val r = (divLoopInt s.cfg.divTentative s.cfg.n |val b| (s.cfg.n - m) (val a)).2
      ∧ val q = (if val b < 0 then -1 else 1)
          * (divLoopInt s.cfg.divTentative s.cfg.n |val b| (s.cfg.n - m) (val a)).1

/-- What holds of every division under both readings (45_muldiv.md section 2, which the spec derives): the invariant modulo
3^N, |R| <= |A|, the width of the quotient and the zero dividend; and under EXACT, which is not this hardware, the
invariant as an exact equation. -/
def Obligations.DivremHoldsModuloTheSpan : Prop :=
  ∀ (s : State) (a b : Word) (m : Nat), s.HasA a → s.HasB b → IsMsb b m →
    ∃ q r : Word, exec .divrem s = .next { s with y := q, r := r, status := 0#4 }
      ∧ (3 ^ s.cfg.n : Int) ∣ val q * val b + val r - val a
      ∧ (val r).natAbs ≤ (val a).natAbs ∧ (val q).natAbs ≤ maxValue (s.cfg.n - m)
      ∧ ((∀ t ∈ a, t = .zero) → q = List.replicate s.cfg.n .zero ∧ r = List.replicate s.cfg.n .zero)
      ∧ (s.cfg.divTentative = .exact → val q * val b + val r = val a)

/-- Only |d| and the sign of d are used (45_muldiv.md section 2, which the spec derives): the negated divisor gives the
negated quotient and the same remainder. -/
def Obligations.DivremNegatesTheQuotientOnly : Prop :=
  ∀ (s u : State) (a b b' : Word), s.HasA a → s.HasB b → (∃ t ∈ b, t ≠ .zero) → u.cfg = s.cfg → u.HasA a → u.HasB b' →
    b'.map Trit.toInt = b.map (fun t => -t.toInt) →
    ∃ q q' r : Word, exec .divrem s = .next { s with y := q, r := r, status := 0#4 }
      ∧ exec .divrem u = .next { u with y := q', r := r, status := 0#4 }
      ∧ q'.map Trit.toInt = q.map (fun t => -t.toInt)

/-- Under EXACT, which is not this hardware, the division is odd in the dividend (45_muldiv.md section 2, which the spec derives):
the negated dividend gives the negated quotient and the negated remainder. -/
def Obligations.DivremExactIsOddInTheDividend : Prop :=
  ∀ (s u : State) (a a' b : Word), s.HasA a → s.HasB b → (∃ t ∈ b, t ≠ .zero) → s.cfg.divTentative = .exact → u.cfg = s.cfg →
    u.HasA a' → u.HasB b → a'.map Trit.toInt = a.map (fun t => -t.toInt) →
    ∃ q q' r r' : Word, exec .divrem s = .next { s with y := q, r := r, status := 0#4 }
      ∧ exec .divrem u = .next { u with y := q', r := r', status := 0#4 }
      ∧ q'.map Trit.toInt = q.map (fun t => -t.toInt) ∧ r'.map Trit.toInt = r.map (fun t => -t.toInt)

/-- When the readings agree (45_muldiv.md section 2, "When the readings agree", which the spec derives): if |n| + |d|·3^(N-1-m)
<= M, both readings give the same quotient and remainder, and the division is exact. -/
def Obligations.DivremReadingsAgree : Prop :=
  ∀ (s : State) (a b : Word) (m : Nat), s.HasA a → s.HasB b → IsMsb b m →
    (val a).natAbs + (val b).natAbs * 3 ^ (s.cfg.n - 1 - m) ≤ maxValue s.cfg.n →
    ∃ q r : Word, val q * val b + val r = val a ∧
      ∀ tent : DivTentative, exec .divrem { s with cfg := { s.cfg with divTentative := tent } }
        = .next { s with cfg := { s.cfg with divTentative := tent }, y := q, r := r, status := 0#4 }
end

