-- ==== Sys2Proof/Laws/State.lean ====
section
/-! SUPPORT. One lemma per field per update of State, so that no later proof unfolds a record update. -/

namespace Sys2Proof.Machine

@[simp] theorem State.setY_y (s : State) (w : Word) : (s.setY w).y = w := rfl
@[simp] theorem State.setY_r (s : State) (w : Word) : (s.setY w).r = s.r := rfl
@[simp] theorem State.setY_t (s : State) (w : Word) : (s.setY w).t = s.t := rfl
@[simp] theorem State.setY_z (s : State) (w : Word) : (s.setY w).z = s.z := rfl
@[simp] theorem State.setY_zf (s : State) (w : Word) : (s.setY w).zf = s.zf := rfl
@[simp] theorem State.setY_status (s : State) (w : Word) : (s.setY w).status = s.status := rfl
@[simp] theorem State.setY_errval (s : State) (w : Word) : (s.setY w).errval = s.errval := rfl
@[simp] theorem State.setY_fatal (s : State) (w : Word) : (s.setY w).fatal = s.fatal := rfl
@[simp] theorem State.setY_busy (s : State) (w : Word) : (s.setY w).busy = s.busy := rfl
@[simp] theorem State.setY_captured (s : State) (w : Word) : (s.setY w).captured = s.captured := rfl
@[simp] theorem State.setY_done (s : State) (w : Word) : (s.setY w).done = s.done := rfl
@[simp] theorem State.setY_remaining (s : State) (w : Word) : (s.setY w).remaining = s.remaining := rfl
@[simp] theorem State.setY_cfg (s : State) (w : Word) : (s.setY w).cfg = s.cfg := rfl
@[simp] theorem State.setY_script (s : State) (w : Word) : (s.setY w).script = s.script := rfl

@[simp] theorem State.setR_y (s : State) (w : Word) : (s.setR w).y = s.y := rfl
@[simp] theorem State.setR_r (s : State) (w : Word) : (s.setR w).r = w := rfl
@[simp] theorem State.setR_t (s : State) (w : Word) : (s.setR w).t = s.t := rfl
@[simp] theorem State.setR_z (s : State) (w : Word) : (s.setR w).z = s.z := rfl
@[simp] theorem State.setR_zf (s : State) (w : Word) : (s.setR w).zf = s.zf := rfl
@[simp] theorem State.setR_status (s : State) (w : Word) : (s.setR w).status = s.status := rfl
@[simp] theorem State.setR_errval (s : State) (w : Word) : (s.setR w).errval = s.errval := rfl
@[simp] theorem State.setR_fatal (s : State) (w : Word) : (s.setR w).fatal = s.fatal := rfl
@[simp] theorem State.setR_busy (s : State) (w : Word) : (s.setR w).busy = s.busy := rfl
@[simp] theorem State.setR_captured (s : State) (w : Word) : (s.setR w).captured = s.captured := rfl
@[simp] theorem State.setR_done (s : State) (w : Word) : (s.setR w).done = s.done := rfl
@[simp] theorem State.setR_remaining (s : State) (w : Word) : (s.setR w).remaining = s.remaining := rfl
@[simp] theorem State.setR_cfg (s : State) (w : Word) : (s.setR w).cfg = s.cfg := rfl
@[simp] theorem State.setR_script (s : State) (w : Word) : (s.setR w).script = s.script := rfl

@[simp] theorem State.setT_y (s : State) (v : Trit) : (s.setT v).y = s.y := rfl
@[simp] theorem State.setT_r (s : State) (v : Trit) : (s.setT v).r = s.r := rfl
@[simp] theorem State.setT_t (s : State) (v : Trit) : (s.setT v).t = v := rfl
@[simp] theorem State.setT_z (s : State) (v : Trit) : (s.setT v).z = s.z := rfl
@[simp] theorem State.setT_zf (s : State) (v : Trit) : (s.setT v).zf = s.zf := rfl
@[simp] theorem State.setT_status (s : State) (v : Trit) : (s.setT v).status = s.status := rfl
@[simp] theorem State.setT_errval (s : State) (v : Trit) : (s.setT v).errval = s.errval := rfl
@[simp] theorem State.setT_fatal (s : State) (v : Trit) : (s.setT v).fatal = s.fatal := rfl
@[simp] theorem State.setT_busy (s : State) (v : Trit) : (s.setT v).busy = s.busy := rfl
@[simp] theorem State.setT_captured (s : State) (v : Trit) : (s.setT v).captured = s.captured := rfl
@[simp] theorem State.setT_done (s : State) (v : Trit) : (s.setT v).done = s.done := rfl
@[simp] theorem State.setT_remaining (s : State) (v : Trit) : (s.setT v).remaining = s.remaining := rfl
@[simp] theorem State.setT_cfg (s : State) (v : Trit) : (s.setT v).cfg = s.cfg := rfl
@[simp] theorem State.setT_script (s : State) (v : Trit) : (s.setT v).script = s.script := rfl

@[simp] theorem State.setZ_y (s : State) (v : BinWord) : (s.setZ v).y = s.y := rfl
@[simp] theorem State.setZ_r (s : State) (v : BinWord) : (s.setZ v).r = s.r := rfl
@[simp] theorem State.setZ_t (s : State) (v : BinWord) : (s.setZ v).t = s.t := rfl
@[simp] theorem State.setZ_z (s : State) (v : BinWord) : (s.setZ v).z = v := rfl
@[simp] theorem State.setZ_zf (s : State) (v : BinWord) : (s.setZ v).zf = s.zf := rfl
@[simp] theorem State.setZ_status (s : State) (v : BinWord) : (s.setZ v).status = s.status := rfl
@[simp] theorem State.setZ_errval (s : State) (v : BinWord) : (s.setZ v).errval = s.errval := rfl
@[simp] theorem State.setZ_fatal (s : State) (v : BinWord) : (s.setZ v).fatal = s.fatal := rfl
@[simp] theorem State.setZ_busy (s : State) (v : BinWord) : (s.setZ v).busy = s.busy := rfl
@[simp] theorem State.setZ_captured (s : State) (v : BinWord) : (s.setZ v).captured = s.captured := rfl
@[simp] theorem State.setZ_done (s : State) (v : BinWord) : (s.setZ v).done = s.done := rfl
@[simp] theorem State.setZ_remaining (s : State) (v : BinWord) : (s.setZ v).remaining = s.remaining := rfl
@[simp] theorem State.setZ_cfg (s : State) (v : BinWord) : (s.setZ v).cfg = s.cfg := rfl
@[simp] theorem State.setZ_script (s : State) (v : BinWord) : (s.setZ v).script = s.script := rfl

@[simp] theorem State.setZF_y (s : State) (v : Bool) : (s.setZF v).y = s.y := rfl
@[simp] theorem State.setZF_r (s : State) (v : Bool) : (s.setZF v).r = s.r := rfl
@[simp] theorem State.setZF_t (s : State) (v : Bool) : (s.setZF v).t = s.t := rfl
@[simp] theorem State.setZF_z (s : State) (v : Bool) : (s.setZF v).z = s.z := rfl
@[simp] theorem State.setZF_zf (s : State) (v : Bool) : (s.setZF v).zf = v := rfl
@[simp] theorem State.setZF_status (s : State) (v : Bool) : (s.setZF v).status = s.status := rfl
@[simp] theorem State.setZF_errval (s : State) (v : Bool) : (s.setZF v).errval = s.errval := rfl
@[simp] theorem State.setZF_fatal (s : State) (v : Bool) : (s.setZF v).fatal = s.fatal := rfl
@[simp] theorem State.setZF_busy (s : State) (v : Bool) : (s.setZF v).busy = s.busy := rfl
@[simp] theorem State.setZF_captured (s : State) (v : Bool) : (s.setZF v).captured = s.captured := rfl
@[simp] theorem State.setZF_done (s : State) (v : Bool) : (s.setZF v).done = s.done := rfl
@[simp] theorem State.setZF_remaining (s : State) (v : Bool) : (s.setZF v).remaining = s.remaining := rfl
@[simp] theorem State.setZF_cfg (s : State) (v : Bool) : (s.setZF v).cfg = s.cfg := rfl
@[simp] theorem State.setZF_script (s : State) (v : Bool) : (s.setZF v).script = s.script := rfl

@[simp] theorem State.setStatus_y (s : State) (c : StatusCode) : (s.setStatus c).y = s.y := rfl
@[simp] theorem State.setStatus_r (s : State) (c : StatusCode) : (s.setStatus c).r = s.r := rfl
@[simp] theorem State.setStatus_t (s : State) (c : StatusCode) : (s.setStatus c).t = s.t := rfl
@[simp] theorem State.setStatus_z (s : State) (c : StatusCode) : (s.setStatus c).z = s.z := rfl
@[simp] theorem State.setStatus_zf (s : State) (c : StatusCode) : (s.setStatus c).zf = s.zf := rfl
@[simp] theorem State.setStatus_status (s : State) (c : StatusCode) : (s.setStatus c).status = statusBits c := rfl
@[simp] theorem State.setStatus_errval (s : State) (c : StatusCode) : (s.setStatus c).errval = s.errval := rfl
@[simp] theorem State.setStatus_fatal (s : State) (c : StatusCode) : (s.setStatus c).fatal = s.fatal := rfl
@[simp] theorem State.setStatus_busy (s : State) (c : StatusCode) : (s.setStatus c).busy = s.busy := rfl
@[simp] theorem State.setStatus_captured (s : State) (c : StatusCode) : (s.setStatus c).captured = s.captured := rfl
@[simp] theorem State.setStatus_done (s : State) (c : StatusCode) : (s.setStatus c).done = s.done := rfl
@[simp] theorem State.setStatus_remaining (s : State) (c : StatusCode) : (s.setStatus c).remaining = s.remaining := rfl
@[simp] theorem State.setStatus_cfg (s : State) (c : StatusCode) : (s.setStatus c).cfg = s.cfg := rfl
@[simp] theorem State.setStatus_script (s : State) (c : StatusCode) : (s.setStatus c).script = s.script := rfl

@[simp] theorem State.setErrval_y (s : State) (v : BinWord) : (s.setErrval v).y = s.y := rfl
@[simp] theorem State.setErrval_r (s : State) (v : BinWord) : (s.setErrval v).r = s.r := rfl
@[simp] theorem State.setErrval_t (s : State) (v : BinWord) : (s.setErrval v).t = s.t := rfl
@[simp] theorem State.setErrval_z (s : State) (v : BinWord) : (s.setErrval v).z = s.z := rfl
@[simp] theorem State.setErrval_zf (s : State) (v : BinWord) : (s.setErrval v).zf = s.zf := rfl
@[simp] theorem State.setErrval_status (s : State) (v : BinWord) : (s.setErrval v).status = s.status := rfl
@[simp] theorem State.setErrval_errval (s : State) (v : BinWord) : (s.setErrval v).errval = v := rfl
@[simp] theorem State.setErrval_fatal (s : State) (v : BinWord) : (s.setErrval v).fatal = s.fatal := rfl
@[simp] theorem State.setErrval_busy (s : State) (v : BinWord) : (s.setErrval v).busy = s.busy := rfl
@[simp] theorem State.setErrval_captured (s : State) (v : BinWord) : (s.setErrval v).captured = s.captured := rfl
@[simp] theorem State.setErrval_done (s : State) (v : BinWord) : (s.setErrval v).done = s.done := rfl
@[simp] theorem State.setErrval_remaining (s : State) (v : BinWord) : (s.setErrval v).remaining = s.remaining := rfl
@[simp] theorem State.setErrval_cfg (s : State) (v : BinWord) : (s.setErrval v).cfg = s.cfg := rfl
@[simp] theorem State.setErrval_script (s : State) (v : BinWord) : (s.setErrval v).script = s.script := rfl

@[simp] theorem State.setFatal_y (s : State) : (s.setFatal).y = s.y := rfl
@[simp] theorem State.setFatal_r (s : State) : (s.setFatal).r = s.r := rfl
@[simp] theorem State.setFatal_t (s : State) : (s.setFatal).t = s.t := rfl
@[simp] theorem State.setFatal_z (s : State) : (s.setFatal).z = s.z := rfl
@[simp] theorem State.setFatal_zf (s : State) : (s.setFatal).zf = s.zf := rfl
@[simp] theorem State.setFatal_status (s : State) : (s.setFatal).status = s.status := rfl
@[simp] theorem State.setFatal_errval (s : State) : (s.setFatal).errval = s.errval := rfl
@[simp] theorem State.setFatal_fatal (s : State) : (s.setFatal).fatal = true := rfl
@[simp] theorem State.setFatal_busy (s : State) : (s.setFatal).busy = s.busy := rfl
@[simp] theorem State.setFatal_captured (s : State) : (s.setFatal).captured = s.captured := rfl
@[simp] theorem State.setFatal_done (s : State) : (s.setFatal).done = s.done := rfl
@[simp] theorem State.setFatal_remaining (s : State) : (s.setFatal).remaining = s.remaining := rfl
@[simp] theorem State.setFatal_cfg (s : State) : (s.setFatal).cfg = s.cfg := rfl
@[simp] theorem State.setFatal_script (s : State) : (s.setFatal).script = s.script := rfl

@[simp] theorem State.nextCycle_y (s : State) : (s.nextCycle).y = s.y := rfl
@[simp] theorem State.nextCycle_r (s : State) : (s.nextCycle).r = s.r := rfl
@[simp] theorem State.nextCycle_t (s : State) : (s.nextCycle).t = s.t := rfl
@[simp] theorem State.nextCycle_z (s : State) : (s.nextCycle).z = s.z := rfl
@[simp] theorem State.nextCycle_zf (s : State) : (s.nextCycle).zf = s.zf := rfl
@[simp] theorem State.nextCycle_status (s : State) : (s.nextCycle).status = s.status := rfl
@[simp] theorem State.nextCycle_errval (s : State) : (s.nextCycle).errval = s.errval := rfl
@[simp] theorem State.nextCycle_fatal (s : State) : (s.nextCycle).fatal = s.fatal := rfl
@[simp] theorem State.nextCycle_busy (s : State) : (s.nextCycle).busy = s.busy := rfl
@[simp] theorem State.nextCycle_captured (s : State) : (s.nextCycle).captured = s.captured := rfl
@[simp] theorem State.nextCycle_done (s : State) : (s.nextCycle).done = s.done := rfl
@[simp] theorem State.nextCycle_remaining (s : State) : (s.nextCycle).remaining = s.remaining := rfl
@[simp] theorem State.nextCycle_cfg (s : State) : (s.nextCycle).cfg = s.cfg := rfl
@[simp] theorem State.nextCycle_script (s : State) : (s.nextCycle).script = s.script.tail := rfl

@[simp] theorem idleEdge_y (s : State) : (idleEdge s).y = s.y := rfl
@[simp] theorem idleEdge_r (s : State) : (idleEdge s).r = s.r := rfl
@[simp] theorem idleEdge_t (s : State) : (idleEdge s).t = s.t := rfl
@[simp] theorem idleEdge_z (s : State) : (idleEdge s).z = s.z := rfl
@[simp] theorem idleEdge_zf (s : State) : (idleEdge s).zf = s.zf := rfl
@[simp] theorem idleEdge_status (s : State) : (idleEdge s).status = s.status := rfl
@[simp] theorem idleEdge_errval (s : State) : (idleEdge s).errval = s.errval := rfl
@[simp] theorem idleEdge_fatal (s : State) : (idleEdge s).fatal = s.fatal := rfl
@[simp] theorem idleEdge_busy (s : State) : (idleEdge s).busy = s.busy := rfl
@[simp] theorem idleEdge_captured (s : State) : (idleEdge s).captured = s.captured := rfl
@[simp] theorem idleEdge_done (s : State) : (idleEdge s).done = false := rfl
@[simp] theorem idleEdge_remaining (s : State) : (idleEdge s).remaining = s.remaining := rfl
@[simp] theorem idleEdge_cfg (s : State) : (idleEdge s).cfg = s.cfg := rfl
@[simp] theorem idleEdge_script (s : State) : (idleEdge s).script = s.script.tail := rfl

@[simp] theorem waitEdge_y (s : State) : (waitEdge s).y = s.y := rfl
@[simp] theorem waitEdge_r (s : State) : (waitEdge s).r = s.r := rfl
@[simp] theorem waitEdge_t (s : State) : (waitEdge s).t = s.t := rfl
@[simp] theorem waitEdge_z (s : State) : (waitEdge s).z = s.z := rfl
@[simp] theorem waitEdge_zf (s : State) : (waitEdge s).zf = s.zf := rfl
@[simp] theorem waitEdge_status (s : State) : (waitEdge s).status = s.status := rfl
@[simp] theorem waitEdge_errval (s : State) : (waitEdge s).errval = s.errval := rfl
@[simp] theorem waitEdge_fatal (s : State) : (waitEdge s).fatal = s.fatal := rfl
@[simp] theorem waitEdge_busy (s : State) : (waitEdge s).busy = s.busy := rfl
@[simp] theorem waitEdge_captured (s : State) : (waitEdge s).captured = s.captured := rfl
@[simp] theorem waitEdge_done (s : State) : (waitEdge s).done = false := rfl
@[simp] theorem waitEdge_remaining (s : State) : (waitEdge s).remaining = s.remaining - 1 := rfl
@[simp] theorem waitEdge_cfg (s : State) : (waitEdge s).cfg = s.cfg := rfl
@[simp] theorem waitEdge_script (s : State) : (waitEdge s).script = s.script.tail := rfl

@[simp] theorem acceptEdge_y (s : State) : (acceptEdge s).y = s.y := rfl
@[simp] theorem acceptEdge_r (s : State) : (acceptEdge s).r = s.r := rfl
@[simp] theorem acceptEdge_t (s : State) : (acceptEdge s).t = s.t := rfl
@[simp] theorem acceptEdge_z (s : State) : (acceptEdge s).z = s.z := rfl
@[simp] theorem acceptEdge_zf (s : State) : (acceptEdge s).zf = s.zf := rfl
@[simp] theorem acceptEdge_status (s : State) : (acceptEdge s).status = s.status := rfl
@[simp] theorem acceptEdge_errval (s : State) : (acceptEdge s).errval = s.errval := rfl
@[simp] theorem acceptEdge_fatal (s : State) : (acceptEdge s).fatal = s.fatal := rfl
@[simp] theorem acceptEdge_busy (s : State) : (acceptEdge s).busy = true := rfl
@[simp] theorem acceptEdge_captured (s : State) : (acceptEdge s).captured = capture s.cfg s.drive := rfl
@[simp] theorem acceptEdge_done (s : State) : (acceptEdge s).done = false := rfl
@[simp] theorem acceptEdge_remaining (s : State) : (acceptEdge s).remaining = latencyLess1 s.cfg (capture s.cfg s.drive) := rfl
@[simp] theorem acceptEdge_cfg (s : State) : (acceptEdge s).cfg = s.cfg := rfl
@[simp] theorem acceptEdge_script (s : State) : (acceptEdge s).script = s.script.tail := rfl

@[simp] theorem completionEdge_y (s : State) : (completionEdge s).y = s.y := rfl
@[simp] theorem completionEdge_r (s : State) : (completionEdge s).r = s.r := rfl
@[simp] theorem completionEdge_t (s : State) : (completionEdge s).t = s.t := rfl
@[simp] theorem completionEdge_z (s : State) : (completionEdge s).z = s.z := rfl
@[simp] theorem completionEdge_zf (s : State) : (completionEdge s).zf = s.zf := rfl
@[simp] theorem completionEdge_status (s : State) : (completionEdge s).status = s.status := rfl
@[simp] theorem completionEdge_errval (s : State) : (completionEdge s).errval = s.errval := rfl
@[simp] theorem completionEdge_fatal (s : State) : (completionEdge s).fatal = s.fatal := rfl
@[simp] theorem completionEdge_busy (s : State) : (completionEdge s).busy = false := rfl
@[simp] theorem completionEdge_captured (s : State) : (completionEdge s).captured = Captured.none s.cfg := rfl
@[simp] theorem completionEdge_done (s : State) : (completionEdge s).done = true := rfl
@[simp] theorem completionEdge_remaining (s : State) : (completionEdge s).remaining = 0 := rfl
@[simp] theorem completionEdge_cfg (s : State) : (completionEdge s).cfg = s.cfg := rfl
@[simp] theorem completionEdge_script (s : State) : (completionEdge s).script = s.script.tail := rfl

@[simp] theorem resetEdge_y (s : State) : (resetEdge s).y = List.replicate s.cfg.n .zero := rfl
@[simp] theorem resetEdge_r (s : State) : (resetEdge s).r = List.replicate s.cfg.n .zero := rfl
@[simp] theorem resetEdge_t (s : State) : (resetEdge s).t = .zero := rfl
@[simp] theorem resetEdge_z (s : State) : (resetEdge s).z = ⟨s.cfg.b, 0#s.cfg.b⟩ := rfl
@[simp] theorem resetEdge_zf (s : State) : (resetEdge s).zf = false := rfl
@[simp] theorem resetEdge_status (s : State) : (resetEdge s).status = 0#4 := rfl
@[simp] theorem resetEdge_errval (s : State) : (resetEdge s).errval = ⟨s.cfg.b, 0#s.cfg.b⟩ := rfl
@[simp] theorem resetEdge_fatal (s : State) : (resetEdge s).fatal = false := rfl
@[simp] theorem resetEdge_busy (s : State) : (resetEdge s).busy = false := rfl
@[simp] theorem resetEdge_captured (s : State) : (resetEdge s).captured = Captured.none s.cfg := rfl
@[simp] theorem resetEdge_done (s : State) : (resetEdge s).done = false := rfl
@[simp] theorem resetEdge_remaining (s : State) : (resetEdge s).remaining = 0 := rfl
@[simp] theorem resetEdge_cfg (s : State) : (resetEdge s).cfg = s.cfg := rfl
@[simp] theorem resetEdge_script (s : State) : (resetEdge s).script = s.script.tail := rfl

end Sys2Proof.Machine
end

