-- ==== Sys2Proof/Laws/Trits.lean ====
section
/-! SUPPORT. The trit functions and the trit code (41_trit.md R80 to R84, 30_encoding.md R50). -/

namespace Sys2Proof.Machine

@[simp] theorem dec_enc (t : Trit) : dec (enc t) = some t := by cases t <;> rfl

theorem enc_ne_illegal (t : Trit) : enc t ≠ 0b10#2 := by cases t <;> decide

theorem enc_injective {t u : Trit} (h : enc t = enc u) : t = u := by
  cases t <;> cases u <;> first | rfl | (exact absurd h (by decide))

/-- R50, R51: only the code 10 denotes no trit. -/
theorem dec_eq_none_iff (c : Code) : dec c = none ↔ c = 0b10#2 := by
  revert c; decide

/-- A code that denotes a trit is that trit's code. -/
theorem dec_eq_some_iff (c : Code) (t : Trit) : dec c = some t ↔ c = enc t := by
  constructor
  · intro h; revert c; cases t <;> decide
  · rintro rfl; exact dec_enc t

theorem toInt_bounds (t : Trit) : -1 ≤ t.toInt ∧ t.toInt ≤ 1 := by cases t <;> decide

theorem toInt_injective {t u : Trit} (h : t.toInt = u.toInt) : t = u := by
  cases t <;> cases u <;> first | rfl | (exact absurd h (by decide))

@[simp] theorem tritNeg_toInt (t : Trit) : (tritNeg t).toInt = -t.toInt := by cases t <;> rfl

@[simp] theorem tritNeg_tritNeg (t : Trit) : tritNeg (tritNeg t) = t := by cases t <;> rfl

theorem tritMul_toInt (a b : Trit) : (tritMul a b).toInt = a.toInt * b.toInt := by
  cases a <;> cases b <;> rfl

/-- The contract of R81. -/
theorem tritFullAdd_contract (a b c : Trit) :
    (tritFullAdd a b c).1.toInt + 3 * (tritFullAdd a b c).2.toInt = a.toInt + b.toInt + c.toInt := by
  cases a <;> cases b <;> cases c <;> decide

end Sys2Proof.Machine
end

