-- ==== Sys2Proof/Laws/Ops.lean ====
section
/-! SUPPORT. One lemma for each shared operation that says once what it can do; proofs cite it instead of unfolding. -/

namespace Sys2Proof.Machine

theorem succeed_eq (s : State) : succeed s = .next (s.setStatus .ok) := rfl

theorem raise_eq (c : StatusCode) (s : State) : raise c s = .next (s.setStatus c) := rfl

/-- A read trit is legal, or the command ends with ILLEGAL_TRIT_CODE (R71). -/
theorem withTrit_cases (c : Code) (s : State) (k : Trit → Answer) :
    (∃ t, c = enc t ∧ withTrit c s k = k t) ∨ (c = 0b10#2 ∧ withTrit c s k = raise .illegalTritCode s) := by
  cases h : dec c with
  | none => exact .inr ⟨(dec_eq_none_iff c).1 h, by simp [withTrit, h]⟩
  | some t => exact .inl ⟨t, (dec_eq_some_iff c t).1 h, by simp [withTrit, h]⟩

@[simp] theorem withTrit_enc (t : Trit) (s : State) (k : Trit → Answer) : withTrit (enc t) s k = k t := by
  simp [withTrit]

@[simp] theorem decBus_encWord (w : Word) : decBus (encWord w) = some w := by
  induction w with
  | nil => rfl
  | cons t w ih => simp_all [encWord, decBus]

/-- A bus that carries a word is that word's bus. -/
theorem decBus_eq_some_iff (p : Bus) (w : Word) : decBus p = some w ↔ p = encWord w := by
  constructor
  · intro h
    induction p generalizing w with
    | nil => simp [decBus] at h; simp [← h, encWord]
    | cons c p ih =>
      cases hc : dec c with
      | none => simp [decBus, hc] at h
      | some t =>
        cases hp : decBus p with
        | none => simp [decBus, hc, hp] at h
        | some v =>
          simp only [decBus, hc, hp, Option.some.injEq] at h
          subst h
          simp [encWord, (dec_eq_some_iff c t).1 hc, ih v hp]
  · rintro rfl; exact decBus_encWord w

/-- A bus carries no word exactly when one of its codes is 10 (R71). -/
theorem decBus_eq_none_iff (p : Bus) : decBus p = none ↔ 0b10#2 ∈ p := by
  induction p with
  | nil => simp [decBus]
  | cons c p ih =>
    cases hc : dec c with
    | none =>
      have h10 : c = 0b10#2 := (dec_eq_none_iff c).1 hc
      simp only [decBus, hc, true_iff]
      exact List.mem_cons.2 (.inl h10.symm)
    | some t =>
      have hne : ¬ 0b10#2 = c := by
        intro h
        rw [(dec_eq_none_iff c).2 h.symm] at hc
        cases hc
      cases hp : decBus p with
      | none => simp [decBus, hc, hp, List.mem_cons, ih.1 hp]
      | some v => simp [decBus, hc, hp, List.mem_cons, hne, ← ih]

@[simp] theorem encWord_length (w : Word) : (encWord w).length = w.length := by simp [encWord]

/-- A read word is legal, or the command ends with ILLEGAL_TRIT_CODE (R71). -/
theorem withWord_cases (p : Bus) (s : State) (k : Word → Answer) :
    (∃ w, p = encWord w ∧ withWord p s k = k w) ∨ (0b10#2 ∈ p ∧ withWord p s k = raise .illegalTritCode s) := by
  cases h : decBus p with
  | none => exact .inr ⟨(decBus_eq_none_iff p).1 h, by simp [withWord, h]⟩
  | some w => exact .inl ⟨w, (decBus_eq_some_iff p w).1 h, by simp [withWord, h]⟩

@[simp] theorem withWord_encWord (w : Word) (s : State) (k : Word → Answer) : withWord (encWord w) s k = k w := by
  simp [withWord]

/-- The range is valid, or the command ends with RANGE_INVALID (R110). -/
theorem withRange_cases (start stop : Nat) (s : State) (k : Answer) :
    ((start ≤ stop ∧ stop < s.cfg.n) ∧ withRange start stop s k = k)
    ∨ (¬ (start ≤ stop ∧ stop < s.cfg.n) ∧ withRange start stop s k = raise .rangeInvalid s) := by
  by_cases h : start ≤ stop ∧ stop < s.cfg.n
  · exact .inl ⟨h, by simp [withRange, rangeValid, h]⟩
  · exact .inr ⟨h, by simp only [withRange, rangeValid, h, decide_false, Bool.false_eq_true, if_false]⟩

/-- The completion edge keeps the kind of answer. -/
theorem completeWith_next_iff (a : Answer) (t : State) :
    completeWith a = .next t ↔ ∃ u, a = .next u ∧ t = completionEdge u := by
  cases a with
  | next u => simp [completeWith, eq_comm]
  | fault f => simp [completeWith]
  | refused r => simp [completeWith]

/-- What a captured command does: an illegal word raises ILLEGAL_COMMAND, a legal one is executed (R70). -/
theorem execCaptured_cases (s : State) :
    (∃ i, decode s.cfg.arithCap s.captured.cmd = .ok i ∧ execCaptured s = exec i s)
    ∨ (∃ e, decode s.cfg.arithCap s.captured.cmd = .error e ∧ execCaptured s = raise .illegalCommand s) := by
  cases h : decode s.cfg.arithCap s.captured.cmd with
  | ok i => exact .inl ⟨i, rfl, by simp [execCaptured, h]⟩
  | error e => exact .inr ⟨e, rfl, by simp [execCaptured, h]⟩

/-- Everything a step can do (R180, R189, R41, R187): one of five edges. -/
theorem step_cases (s : State) :
    (s.drive.rst = true ∧ step s = .next (resetEdge s))
    ∨ (s.drive.rst = false ∧ s.busy = true ∧ s.remaining = 0 ∧ step s = completeWith (execCaptured s))
    ∨ (s.drive.rst = false ∧ s.busy = true ∧ s.remaining ≠ 0 ∧ step s = .next (waitEdge s))
    ∨ (s.drive.rst = false ∧ s.busy = false ∧ s.accepts = true ∧ step s = .next (acceptEdge s))
    ∨ (s.drive.rst = false ∧ s.busy = false ∧ s.accepts = false ∧ step s = .next (idleEdge s)) := by
  simp only [step, clockEdge]
  cases hr : s.drive.rst <;> cases hb : s.busy <;> cases ha : s.accepts <;>
    by_cases hz : s.remaining = 0 <;> simp [hz]

theorem step_of_rst {s : State} (h : s.drive.rst = true) : step s = .next (resetEdge s) := by
  simp [step, clockEdge, h]

theorem step_of_completion {s : State} (hr : s.drive.rst = false) (hb : s.busy = true) (hz : s.remaining = 0) :
    step s = completeWith (execCaptured s) := by
  simp [step, clockEdge, hr, hb, hz]

theorem step_of_waiting {s : State} (hr : s.drive.rst = false) (hb : s.busy = true) (hz : s.remaining ≠ 0) :
    step s = .next (waitEdge s) := by
  simp [step, clockEdge, hr, hb, hz]

@[simp] theorem fitBus_length (n : Nat) (p : Bus) : (fitBus n p).length = n := by
  simp [fitBus]

/-- A port value of the right width is captured as it stands (R41). -/
theorem fitBus_eq_self {n : Nat} {p : Bus} (h : p.length = n) : fitBus n p = p := by
  subst h; simp [fitBus]

end Sys2Proof.Machine
end

