-- ==== Sys2Proof/Laws/PerInstr.lean ====
section
/-! SUPPORT. Per instruction: the fields of its command word (30_encoding.md R54 to R60) read back from the word. -/

namespace Sys2Proof.Laws.EncodedFields

/-- Each field of the command word of a well-formed instruction reads back as the instruction has it, and RSV is 0. -/
def Statement (i : Instr) : Prop :=
  i.WellFormed = true →
    opcField (encode i) = (opcodeOf i).toNat ∧ startField (encode i) = startOf i ∧ stopField (encode i) = stopOf i
      ∧ widthField (encode i) = fieldOfWidth (widthOf i) ∧ rsvField (encode i) = 0#9

/-- The layout of R54 as a number. -/
theorem pack_toNat (o : BitVec 5) (s e : BitVec 8) (w : BitVec 2) :
    (packFields o s e w).toNat = o.toNat + 2 ^ 5 * s.toNat + 2 ^ 13 * e.toNat + 2 ^ 21 * w.toNat := by
  simp only [packFields, BitVec.toNat_append, BitVec.toNat_ofNat, Nat.zero_mod, Nat.zero_shiftLeft, Nat.zero_or]
  rw [← Nat.shiftLeft_add_eq_or_of_lt e.isLt, ← Nat.shiftLeft_add_eq_or_of_lt s.isLt,
    ← Nat.shiftLeft_add_eq_or_of_lt o.isLt]
  simp only [Nat.shiftLeft_eq]
  omega

/-- The fields of the layout of R54 are what was packed. -/
theorem pack_fields (o : BitVec 5) (s e : BitVec 8) (w : BitVec 2) :
    opcField (packFields o s e w) = o.toNat ∧ startField (packFields o s e w) = s.toNat
      ∧ stopField (packFields o s e w) = e.toNat ∧ widthField (packFields o s e w) = w
      ∧ rsvField (packFields o s e w) = 0#9 := by
  have ho := o.isLt
  have hs := s.isLt
  have he := e.isLt
  have hw := w.isLt
  refine ⟨?_, ?_, ?_, BitVec.eq_of_toNat_eq ?_, BitVec.eq_of_toNat_eq ?_⟩ <;>
    simp only [opcField, startField, stopField, widthField, rsvField, BitVec.extractLsb'_toNat, pack_toNat,
      Nat.shiftRight_eq_div_pow, BitVec.toNat_ofNat] <;>
    omega

theorem of_fields_ok (i : Instr) (hs : startOf i < 256) (he : stopOf i < 256) : Statement i := by
  intro _
  obtain ⟨h1, h2, h3, h4, h5⟩ :=
    pack_fields (opcodeOf i) (BitVec.ofNat 8 (startOf i)) (BitVec.ofNat 8 (stopOf i)) (fieldOfWidth (widthOf i))
  refine ⟨h1, h2.trans ?_, h3.trans ?_, h4, h5⟩
  · simpa using hs
  · simpa using he

theorem nop : Statement .nop := of_fields_ok _ (by decide) (by decide)

theorem tadd : Statement .tadd := of_fields_ok _ (by decide) (by decide)

theorem tneg : Statement .tneg := of_fields_ok _ (by decide) (by decide)

theorem tmul : Statement .tmul := of_fields_ok _ (by decide) (by decide)

theorem tfromint : Statement .tfromint := of_fields_ok _ (by decide) (by decide)

theorem zero : Statement .zero := of_fields_ok _ (by decide) (by decide)

theorem fromdigit : Statement .fromdigit := of_fields_ok _ (by decide) (by decide)

theorem frombin : Statement .frombin := of_fields_ok _ (by decide) (by decide)

theorem tobin : Statement .tobin := of_fields_ok _ (by decide) (by decide)

theorem sign : Statement .sign := of_fields_ok _ (by decide) (by decide)

theorem iszero : Statement .iszero := of_fields_ok _ (by decide) (by decide)

theorem cmp : Statement .cmp := of_fields_ok _ (by decide) (by decide)

theorem rdrange (start stop : Nat) (w : WidthSel) : Statement (.rdrange start stop w) := fun h => by
  have h' : start < 256 ∧ stop < 256 := by simpa [Instr.WellFormed] using h
  exact of_fields_ok (.rdrange start stop w) h'.1 h'.2 h

theorem wrrange (start stop : Nat) : Statement (.wrrange start stop) := fun h => by
  have h' : start < 256 ∧ stop < 256 := by simpa [Instr.WellFormed] using h
  exact of_fields_ok (.wrrange start stop) h'.1 h'.2 h

theorem addc : Statement .addc := of_fields_ok _ (by decide) (by decide)

theorem add : Statement .add := of_fields_ok _ (by decide) (by decide)

theorem sub : Statement .sub := of_fields_ok _ (by decide) (by decide)

theorem neg : Statement .neg := of_fields_ok _ (by decide) (by decide)

theorem abs : Statement .abs := of_fields_ok _ (by decide) (by decide)

theorem shl (amount : Nat) : Statement (.shl amount) := fun h => by
  have h' : amount < 256 := by simpa [Instr.WellFormed] using h
  exact of_fields_ok (.shl amount) h' (by simp [stopOf]) h

theorem mul : Statement .mul := of_fields_ok _ (by decide) (by decide)

theorem divrem : Statement .divrem := of_fields_ok _ (by decide) (by decide)

end Sys2Proof.Laws.EncodedFields
end

