-- ==== Sys2Proof/Laws/Run.lean ====
section
/-! SUPPORT. Runs of several clock edges, one edge at a time, the end of a run, and the two answers a meaning can give. -/

namespace Sys2Proof.Machine

/-- A run of k + 1 edges is its first edge and then a run of k. -/
theorem run_succ {k : Nat} {s t : State} (h : step s = .next t) :
    Host.Core.run Sys2Proof.core (k + 1) s = Host.Core.run Sys2Proof.core k t := by
  have h' : Sys2Proof.core.step s = .next t := h
  simp only [Host.Core.run, h']

theorem run_zero (s : State) : Host.Core.run Sys2Proof.core 0 s = .next s := rfl

/-- A run starts at a clean entry once the host has released reset (R184). -/
theorem HostRun.start_cleanEntry {h : HostRun} (hr : h.start.drive.rst = false) : h.start.CleanEntry := ⟨rfl, hr⟩

/-- At every cycle FATAL is looked at first (R192). -/
theorem verdictFrom_of_fatal {cmds : List Captured} {k : Nat} {p : Progress} {s : State} (h : s.fatal = true) :
    verdictFrom cmds k p s = .error .fatalState := by
  cases k <;> simp [verdictFrom, h]

/-- A cycle that ends the run gives the observation, however many edges are looked at (R192). -/
theorem verdictFrom_of_ended {cmds : List Captured} {k : Nat} {p : Progress} {s : State} (hf : s.fatal = false)
    (he : p.ended cmds s = true) : verdictFrom cmds k p s = .ok (some s.observation) := by
  cases k <;> simp [verdictFrom, hf, he]

/-- A cycle that decides nothing leaves the run to the next cycle. -/
theorem verdictFrom_succ {cmds : List Captured} {k : Nat} {p : Progress} {s t : State} (hf : s.fatal = false)
    (he : p.ended cmds s = false) (h : step s = .next t) :
    verdictFrom cmds (k + 1) p s = verdictFrom cmds k (p.after s t) t := by
  simp [verdictFrom, hf, he, h]

/-- A successful end is reached: in some cycle up to the k-th FATAL = 0, BUSY = 0, and the observation is that cycle's. -/
theorem verdictFrom_success {cmds : List Captured} {k : Nat} {p : Progress} {s : State} {o : Observation}
    (h : verdictFrom cmds k p s = .ok (some o)) :
    ∃ j t, j ≤ k ∧ Host.Core.run Sys2Proof.core j s = .next t ∧ t.fatal = false ∧ t.busy = false ∧ t.observation = o := by
  induction k generalizing p s with
  | zero =>
    cases hf : s.fatal with
    | true => simp [verdictFrom, hf] at h
    | false =>
      cases he : p.ended cmds s with
      | true =>
        simp only [verdictFrom_of_ended hf he, Except.ok.injEq, Option.some.injEq] at h
        exact ⟨0, s, Nat.le_refl 0, rfl, hf, by simp_all [Progress.ended], h⟩
      | false => simp [verdictFrom, hf, he] at h
  | succ k ih =>
    cases hf : s.fatal with
    | true => simp [verdictFrom, hf] at h
    | false =>
      cases he : p.ended cmds s with
      | true =>
        simp only [verdictFrom_of_ended hf he, Except.ok.injEq, Option.some.injEq] at h
        exact ⟨0, s, Nat.zero_le _, rfl, hf, by simp_all [Progress.ended], h⟩
      | false =>
        cases hs : step s with
        | next t =>
          rw [verdictFrom_succ hf he hs] at h
          obtain ⟨j, u, hj, hrun, hu⟩ := ih h
          exact ⟨j + 1, u, Nat.succ_le_succ hj, (run_succ hs).trans hrun, hu⟩
        | fault f => simp [verdictFrom, hf, he, hs] at h
        | refused r => simp [verdictFrom, hf, he, hs] at h

/-- What follows from the answer of `succeed` follows from its state. -/
theorem of_succeed {P : State → Prop} {s t : State} (h : succeed s = .next t) (hP : P (s.setStatus .ok)) : P t := by
  cases h; exact hP

/-- What follows from the answer of `raise` follows from its state. -/
theorem of_raise {P : State → Prop} {c : StatusCode} {s t : State} (h : raise c s = .next t)
    (hP : P (s.setStatus c)) : P t := by
  cases h; exact hP

end Sys2Proof.Machine
end

