-- ==== Sys2Proof/Laws/Words.lean ====
section
/-! SUPPORT. Lengths and the recursion of the value of a word (00_scope.md R12). -/

namespace Sys2Proof.Machine

theorem valFrom_eq_mul (i : Nat) (w : Word) : valFrom i w = 3 ^ i * valFrom 0 w := by
  induction w generalizing i with
  | nil => simp [valFrom]
  | cons t w ih =>
    simp only [valFrom]
    rw [ih (i + 1), ih (0 + 1)]
    ring

theorem val_nil : val [] = 0 := rfl

/-- The value by its least significant trit. -/
theorem val_cons (t : Trit) (w : Word) : val (t :: w) = t.toInt + 3 * val w := by
  simp only [val, valFrom]
  rw [valFrom_eq_mul]
  ring

@[simp] theorem zeroWord_length (n : Nat) : (zeroWord n).length = n := by simp [zeroWord]

@[simp] theorem negWord_length (w : Word) : (negWord w).length = w.length := by simp [negWord]

@[simp] theorem absWord_length (w : Word) : (absWord w).length = w.length := by
  unfold absWord; split <;> simp

theorem digitWord_length {n : Nat} (h : 1 ≤ n) (t : Trit) : (digitWord n t).length = n := by
  simp [digitWord]; omega

theorem shiftLeft_length (w : Word) (k : Nat) : (shiftLeft w k).length = w.length := by
  unfold shiftLeft; split
  · simp
  · simp; omega

theorem balDigits_length (v : Int) (l : Nat) : (balDigits v l).1.length = l := by
  induction l generalizing v with
  | zero => simp [balDigits]
  | succ l ih =>
    simp only [balDigits]
    split
    · simp
    · simp [ih]

theorem fromNative_length (n : Nat) (v : Int) : (fromNative n v).length = n := balDigits_length v n

theorem fullAddWord_length {a b : Word} (h : a.length = b.length) (c : Trit) :
    (fullAddWord a b c).1.length = a.length := by
  induction a generalizing b c with
  | nil => simp [fullAddWord]
  | cons x a ih =>
    cases b with
    | nil => simp at h
    | cons y b => simp [fullAddWord, ih (by simpa using h)]

end Sys2Proof.Machine
end

