-- ==== Sys2Proof/Tests/Slice0.lean ====
section
/-! SUPPORT. The model's own tests. The words and the expected results are those of 95_test_vectors.md (the vector is named in
the comment) or are written out from the rule named. -/

namespace Sys2Proof.Tests

open Sys2Proof.Machine

/-! ## Helpers -/

/-- The next state of an answer. -/
def nextOf : Answer → Option State
  | .next t => some t
  | .fault _ => none
  | .refused _ => none

/-- An instance in its reset state with the command word `w` at its completion edge, its operands given as bus numbers (R52). -/
def placed (cfg : Config) (w a b : Nat) (cin : Code) (x : Int) : State :=
  { State.resetOf cfg [] with
    busy := true
    captured := { cmd := BitVec.ofNat 32 w, a := busOfBits cfg.n a, b := busOfBits cfg.n b, cin := cin, x := sext cfg.b x } }

/-- The state after the completion edge in the Tryte instance. -/
def after (w a b : Nat) (cin : Code) (x : Int) : Option State := nextOf (step (placed Config.tryte w a b cin x))

/-- Y as a bus number, and STATUS. -/
def yStatus (s : Option State) : Option (Nat × BitVec 4) := s.map fun t => (busBits (encWord t.y), t.status)

/-- Y and R as bus numbers. -/
def yr (s : Option State) : Option (Nat × Nat) := s.map fun t => (busBits (encWord t.y), busBits (encWord t.r))

/-- Y as a bus number, and T. -/
def yt (s : Option State) : Option (Nat × Trit) := s.map fun t => (busBits (encWord t.y), t.t)

/-- Z and STATUS. -/
def zStatus (s : Option State) : Option (Int × BitVec 4) := s.map fun t => (sval t.z, t.status)

/-! ## Ill-formed instructions are refused, one test for each check -/

theorem test_wf_rdrange_start : Instr.WellFormed (.rdrange 256 0 .w8) = false := by decide
theorem test_wf_rdrange_stop : Instr.WellFormed (.rdrange 0 256 .w8) = false := by decide
theorem test_wf_wrrange_start : Instr.WellFormed (.wrrange 256 0) = false := by decide
theorem test_wf_wrrange_stop : Instr.WellFormed (.wrrange 0 256) = false := by decide
theorem test_wf_shl_amount : Instr.WellFormed (.shl 256) = false := by decide
theorem test_wf_accepts_255 : Instr.WellFormed (.rdrange 255 255 .w32) = true := by decide

/-! ## Decoding: each constructor's word, written out from R54 and R61 -/

theorem test_decode_nop : decode true 0x00000000#32 = .ok .nop := by decide
theorem test_decode_tadd : decode true 0x00000001#32 = .ok .tadd := by decide
theorem test_decode_tneg : decode true 0x00000002#32 = .ok .tneg := by decide
theorem test_decode_tmul : decode true 0x00000003#32 = .ok .tmul := by decide
theorem test_decode_tfromint : decode true 0x00000004#32 = .ok .tfromint := by decide
theorem test_decode_zero : decode true 0x00000005#32 = .ok .zero := by decide
theorem test_decode_fromdigit : decode true 0x00000006#32 = .ok .fromdigit := by decide
theorem test_decode_frombin : decode true 0x00000007#32 = .ok .frombin := by decide
theorem test_decode_tobin : decode true 0x00000008#32 = .ok .tobin := by decide
theorem test_decode_sign : decode true 0x00000009#32 = .ok .sign := by decide
theorem test_decode_iszero : decode true 0x0000000A#32 = .ok .iszero := by decide
theorem test_decode_cmp : decode true 0x0000000B#32 = .ok .cmp := by decide
theorem test_decode_rdrange : decode true 0x0000602C#32 = .ok (.rdrange 1 3 .portWidth) := by decide
theorem test_decode_rdrange_width : decode true 0x0062E00C#32 = .ok (.rdrange 0 23 .w32) := by decide
theorem test_decode_wrrange : decode true 0x0000402D#32 = .ok (.wrrange 1 2) := by decide
theorem test_decode_addc : decode true 0x0000000E#32 = .ok .addc := by decide
theorem test_decode_add : decode true 0x0000000F#32 = .ok .add := by decide
theorem test_decode_sub : decode true 0x00000010#32 = .ok .sub := by decide
theorem test_decode_neg : decode true 0x00000011#32 = .ok .neg := by decide
theorem test_decode_abs : decode true 0x00000012#32 = .ok .abs := by decide
theorem test_decode_shl : decode true 0x00001FF3#32 = .ok (.shl 255) := by decide
theorem test_decode_mul : decode true 0x00000014#32 = .ok .mul := by decide
theorem test_decode_divrem : decode true 0x00000015#32 = .ok .divrem := by decide

/-! Words that are illegal (R62): V-ILL-1 to V-ILL-7, V-ILL-15, and R63. -/

theorem test_illegal_opcode_16 : decode true 0x00000016#32 = .error .reservedOpcode := by decide
theorem test_illegal_opcode_1f : decode true 0x0000001F#32 = .error .reservedOpcode := by decide
theorem test_illegal_rsv_low : decode true 0x00800000#32 = .error .reservedBits := by decide
theorem test_illegal_rsv_high : decode true 0x80000015#32 = .error .reservedBits := by decide
theorem test_illegal_start_nop : decode true 0x00000020#32 = .error .unusedStart := by decide
theorem test_illegal_stop_add : decode true 0x0000200F#32 = .error .unusedStop := by decide
theorem test_illegal_width_wrrange : decode true 0x0020000D#32 = .error .unusedWidth := by decide
theorem test_illegal_start_divrem : decode true 0x00000415#32 = .error .unusedStart := by decide
theorem test_no_arithmetic : decode false 0x0000000E#32 = .error .noArithmetic := by decide
theorem test_no_arithmetic_spares_cmp : decode false 0x0000000B#32 = .ok .cmp := by decide
theorem test_encode_rdrange : encode (.rdrange 0 23 .w32) = 0x0062E00C#32 := by decide
theorem test_opcodeMap_apart : opcodeMap.Pairwise (fun p q => p.pattern &&& (p.mask &&& q.mask) ≠ q.pattern &&& (p.mask &&& q.mask)) := by
  decide

/-! ## One step on each command; the results are those of the vector named -/

-- R74: after a failed TFROMINT a NOP gives STATUS = 0 and leaves ERRVAL
theorem test_nop : (nextOf (step { placed Config.tryte 0 0 0 0 0 with status := 1#4, errval := sext 16 7 })).map
    (fun t => (t.status, sval t.errval)) = some (0#4, 7) := by decide
-- V-TADD-26, V-TADD-2
theorem test_tadd_carry : yt (after 0x01 0x001 0x001 0b00#2 0) = some (0x003, .pos) := by decide
theorem test_tadd_borrow : yt (after 0x01 0x003 0x003 0b00#2 0) = some (0x001, .neg) := by decide
-- V-TNEG-4, V-TNEG-5
theorem test_tneg_trit0_only : yStatus (after 0x02 0x01F 0 0 0) = some (0x001, 0#4) := by decide
theorem test_tneg_unread_code : yStatus (after 0x02 0x800 0 0 0) = some (0x000, 0#4) := by decide
-- V-TMUL-1, V-TMUL-3
theorem test_tmul_signs : yStatus (after 0x03 0x003 0x003 0 0) = some (0x001, 0#4) := by decide
theorem test_tmul_mixed : yStatus (after 0x03 0x003 0x001 0 0) = some (0x003, 0#4) := by decide
-- V-TFROMINT-1, V-TFROMINT-9
theorem test_tfromint_minus_one : yStatus (after 0x04 0 0 0 (-1)) = some (0x003, 0#4) := by decide
theorem test_tfromint_most_negative : (after 0x04 0 0 0 (-32768)).map (fun t => (t.status, sval t.errval))
    = some (1#4, -32768) := by decide
-- V-ZERO-1, V-FROMDIGIT-2
theorem test_zero : yStatus (nextOf (step { placed Config.tryte 0x05 0 0 0 0 with y := List.replicate 6 .pos }))
    = some (0x000, 0#4) := by decide
theorem test_fromdigit : yStatus (after 0x06 0x01F 0 0 0) = some (0x003, 0#4) := by decide
-- V-FROMBIN-8, V-FROMBIN-13
theorem test_frombin_wraps : yStatus (after 0x07 0 0 0 365) = some (0xFFF, 0#4) := by decide
theorem test_frombin_most_negative : yStatus (after 0x07 0 0 0 (-32768)) = some (0x051, 0#4) := by decide
-- V-TOBIN-5, V-TOBIN-6
theorem test_tobin_min : zStatus (after 0x08 0xFFF 0 0 0) = some (-364, 0#4) := by decide
theorem test_tobin_100 : zStatus (after 0x08 0x171 0 0 0) = some (100, 0#4) := by decide
-- V-SIGN-3, V-SIGN-4
theorem test_sign_neg : (after 0x09 0x3D3 0 0 0).map (·.t) = some .neg := by decide
theorem test_sign_zero_top : (after 0x09 0x015 0 0 0).map (·.t) = some .pos := by decide
-- V-ISZERO-1, V-ISZERO-4
theorem test_iszero_zero : (after 0x0A 0 0 0 0).map (·.zf) = some true := by decide
theorem test_iszero_top_trit : (after 0x0A 0x400 0 0 0).map (·.zf) = some false := by decide
-- V-CMP-4, V-CMP-7
theorem test_cmp_ends : (after 0x0B 0xFFF 0x555 0 0).map (·.t) = some .neg := by decide
theorem test_cmp_negative : (after 0x0B 0x03F 0x0D5 0 0).map (·.t) = some .pos := by decide
-- V-RDRANGE-1, V-RDRANGE-4
theorem test_rdrange : zStatus (after 0x0000602C 0x171 0 0 0) = some (6, 0#4) := by decide
theorem test_rdrange_does_not_fit : zStatus (after 0x0020A00C 0x555 0 0 0) = some (0, 3#4) := by decide
-- V-WRRANGE-1, V-ILL-13
theorem test_wrrange : yStatus (after 0x0000402D 0x171 0 0 (-4)) = some (0x17D, 0#4) := by decide
theorem test_wrrange_range_first : yStatus (after 0x0000608D 0 0 0 999) = some (0x000, 2#4) := by decide
-- V-ADDC-3, V-ADDC-6
theorem test_addc_wraps_down : yt (after 0x0E 0xFFF 0x000 0b11#2 0) = some (0x555, .neg) := by decide
theorem test_addc_wraps_up : yt (after 0x0E 0x757 0x757 0b00#2 0) = some (0xF35, .pos) := by decide
-- V-ADD-5, V-ADD-2
theorem test_add_wraps : yt (after 0x0F 0x555 0x001 0 0) = some (0xFFF, .zero) := by decide
theorem test_add_mixed : yStatus (after 0x0F 0x035 0x004 0 0) = some (0x00D, 0#4) := by decide
-- V-SUB-2, V-SUB-3
theorem test_sub_wraps : yStatus (after 0x10 0xFFF 0x001 0 0) = some (0x555, 0#4) := by decide
theorem test_sub_min : yStatus (after 0x10 0x000 0xFFF 0 0) = some (0x555, 0#4) := by decide
-- V-NEG-1, V-ABS-1, V-ABS-2
theorem test_neg : yStatus (after 0x11 0x015 0 0 0) = some (0x03F, 0#4) := by decide
theorem test_abs_negates : yStatus (after 0x12 0x03F 0 0 0) = some (0x015, 0#4) := by decide
theorem test_abs_keeps : yStatus (after 0x12 0x015 0 0 0) = some (0x015, 0#4) := by decide
-- V-SHL-4, V-SHL-7
theorem test_shl_changes_sign : yStatus (after 0x33 0x7FF 0 0 0) = some (0xFFC, 0#4) := by decide
theorem test_shl_by_width : yStatus (after 0xD3 0x001 0 0 0) = some (0x000, 0#4) := by decide
-- V-MUL-7, V-MUL-2
theorem test_mul_wraps : yStatus (after 0x14 0x171 0x171 0 0) = some (0xC51, 0#4) := by decide
theorem test_mul_mixed : yStatus (after 0x14 0x035 0x004 0 0) = some (0x0D4, 0#4) := by decide
-- V-DIVREM-15
theorem test_divrem_wrap : yr (after 0x15 0xFFF 0xDDD 0 0) = some (0x003, 0x774) := by decide
-- V-EXACT-3: the other reading
theorem test_divrem_exact : yr (nextOf (step (placed { Config.tryte with divTentative := .exact } 0x15 0xFFF 0xDDD 0 0)))
    = some (0x001, 0xDDD) := by decide
-- V-DIVREM-19; V-ILL-9: an illegal code comes before the zero divisor
theorem test_divrem_zero : (after 0x15 0x01F 0 0 0).map (fun t => (t.status, t.fatal)) = some (4#4, true) := by decide
theorem test_illegal_code_first : (after 0x15 0x080 0 0 0).map (fun t => (t.status, t.fatal)) = some (6#4, false) := by decide
-- V-ILL-5, V-ILL-10
theorem test_illegal_command : yStatus (after 0x0000200F 0 0 0 0) = some (0x000, 5#4) := by decide
theorem test_illegal_cin : yStatus (after 0x01 0x001 0x001 0b10#2 0) = some (0x000, 6#4) := by decide
-- V-W24-9: the Word instance
theorem test_word_rdrange : zStatus (nextOf (step (placed Config.word 0x0062E00C 0x555555555555 0 0 0))) = some (0, 3#4) := by
  decide

/-! ## The clock edge, packing and the host's side -/

theorem test_table_word : decodeTableWord 32 0x00000033 = some (.shl 1) := by decide
theorem test_fetch_word_first_after_reset : yStatus (nextOf (step (State.reset.withFetchWord 32 0x00000005))) = some (0, 0#4) := by
  decide
-- R52: 13 is 0x015, -13 is 0x03F; R104: 13 is written 000111
theorem test_pack_13 : busBits (encWord (fromNative 6 13)) = 0x015 := by decide
theorem test_pack_minus_13 : busBits (encWord (fromNative 6 (-13))) = 0x03F := by decide
theorem test_display_100 : display (fromNative 6 100) = "011T01" := by decide
-- R67: the host issues a pseudo-instruction, and reads what the table lists: for INC of 364 and DEC of -364 (V-ADDC-2, V-ADDC-3)
-- the wrapped word and the carry, for REM of 10 by 3 (V-DIVREM-1) the remainder alone
/-- What the host reads after a pseudo-instruction in the Tryte instance. -/
def pseudoReads (p : Pseudo) : Option (Int × Option Trit) :=
  let s : State := { State.reset with busy := true, captured := capture Config.tryte (p.expand.drive State.reset) }
  (nextOf (step s)).map fun t => (val (p.result t).word, (p.result t).carry)

theorem test_inc_reads_carry : pseudoReads (.inc (.value 364)) = some (-364, some .pos) := by decide
theorem test_dec_reads_carry : pseudoReads (.dec (.value (-364))) = some (364, some .neg) := by decide
theorem test_rem_reads_remainder : pseudoReads (.rem (.value 10) (.value 3)) = some (1, none) := by decide
-- R187: the fatal state does not accept; R180: one reset edge leaves it
theorem test_fatal_not_ready : State.cmdReady { State.reset with fatal := true } = false := by decide
theorem test_reset_clears_fatal : (nextOf (step { State.reset with
    fatal := true, status := 4#4, script := [{ Drive.idle Config.tryte with rst := true }] })).map (fun t => (t.fatal, t.status))
    = some (false, 0#4) := by decide

/-! ## The end of a run (R192, R170) -/

/-- A run of the one command `w`, looked at from its completion edge on, the host then driving `script`. -/
def judged (w a b : Nat) (script : List Drive) (k : Nat) : Except Fault (Option Observation) :=
  let s : State := { placed Config.tryte w a b 0 0 with script := script }
  verdictFrom [s.captured] k { issued := [s.captured], settled := false } s

-- R192: ADD of 5 and 3 ends the run at its completion, with Y = 8, and later moves do not change that
theorem test_run_succeeds : judged 0x0F 0x01F 0x004 [] 1 = .ok (some { State.reset.observation with y := fromNative 6 8 }) := by
  decide
-- R192: before the completion edge the run is not over
theorem test_run_not_over : judged 0x0F 0x01F 0x004 [] 0 = .ok none := by decide
-- P4: a division by zero makes the run a fault, and a reset does not take that back
theorem test_run_fault_survives_reset :
    judged 0x15 0x01D 0 [Drive.idle Config.tryte, { Drive.idle Config.tryte with rst := true }] 4 = .error .fatalState := by decide
-- R181, R192: a last command dropped by reset has not completed, so the run does not end
theorem test_run_dropped_command : judged 0x0F 0x01F 0x004 [{ Drive.idle Config.tryte with rst := true }] 4 = .ok none := by
  decide
-- The model's choice, log entry 24: the empty sequence ends at its clean entry
theorem test_run_empty : (HostRun.verdict { cfg := Config.tryte, cmds := [], script := [] } 0)
    = .ok (some State.reset.observation) := by decide

/-! ## Witnesses: for each statement with hypotheses, a concrete state and operands that meet all of them; one for each
clause, at a boundary of its range -/

/-- The Tryte instance with the given operands captured. -/
def st (a b : Nat) (cin : Code) (x : Int) : State := placed Config.tryte 0 a b cin x

/-- One edge with reset asserted. -/
def rstEdge : Drive := { Drive.idle Config.tryte with rst := true }

/-- An offer of ZERO. -/
def offer : Drive := { Drive.idle Config.tryte with cmdValid := true, cmd := 0x05#32 }

/-- The fatal state. -/
def fatalNow : State := { State.reset with fatal := true, status := 4#4 }

/-- 5 = 0001TT. -/
def five : Word := [.neg, .neg, .pos, .zero, .zero, .zero]

/-- 3 = 000010. -/
def three : Word := [.zero, .pos, .zero, .zero, .zero, .zero]

/-- -3 = 0000T0. -/
def minusThree : Word := [.zero, .neg, .zero, .zero, .zero, .zero]

/-- 10 = 000101. -/
def ten : Word := [.pos, .zero, .pos, .zero, .zero, .zero]

/-- The all-Zero word. -/
def none6 : Word := List.replicate 6 .zero

theorem witness_ResetEdgeGivesTheResetState :
    ({ State.reset with script := [rstEdge] } : State).drive.rst = true
    ∧ (resetEdge { State.reset with script := [rstEdge] }).drive.rst = false := by decide
theorem witness_ResetErasesTheCommandInFlight :
    let s : State := { placed Config.tryte 0x05 0 0 0 0 with script := [rstEdge] }
    let u : State := { State.reset with script := [{ offer with rst := true }] }
    s.cfg = u.cfg ∧ s.script.tail = u.script.tail ∧ s.drive.rst = true ∧ u.drive.rst = true ∧ s ≠ u := by decide
theorem witness_InvariantHoldsAtReset : Config.tryte.Legal ∧ Config.word.Legal
    ∧ ({ n := 1, b := 2, arithCap := false, divTentative := .exact } : Config).Legal
    ∧ ({ n := 40, b := 64, arithCap := true, divTentative := .wrap } : Config).Legal := by decide
theorem witness_StepKeepsTheInvariant :
    (placed Config.tryte 0x15 0x011 0x004 0 0).Inv ∧ nextOf (step (placed Config.tryte 0x15 0x011 0x004 0 0)) ≠ none
    ∧ fatalNow.Inv ∧ nextOf (step fatalNow) ≠ none := by decide
theorem witness_StepRunsTheDecodedInstruction :
    let s := placed Config.tryte 0x15 0x011 0x004 0 0
    s.drive.rst = false ∧ s.busy = true ∧ s.remaining = 0 ∧ decode s.cfg.arithCap s.captured.cmd = .ok .divrem
    ∧ nextOf (exec .divrem s) ≠ none := by decide
theorem witness_PlacedWordRunsAtTheNextStep :
    decode State.reset.cfg.arithCap (BitVec.ofNat 32 (0x33 % 2 ^ 32)) = .ok (.shl 1)
    ∧ nextOf (exec (.shl 1) (State.reset.withFetchWord 32 0x33)) ≠ none := by decide
theorem witness_DoneAndReadyAreThoseOfR32 :
    State.reset.drive.rst = false ∧ nextOf (step (placed Config.tryte 0x05 0 0 0 0)) ≠ none
    ∧ ({ fatalNow with script := [rstEdge] } : State).drive.rst = true
    ∧ (resetEdge { fatalNow with script := [rstEdge] }).drive.rst = false := by decide
theorem witness_AcceptanceCapturesThePorts :
    let s : State := { State.reset with script := [offer] }
    s.busy = false ∧ s.drive.cmdValid = true ∧ s.cmdReady = true ∧ s.drive.rst = false
    ∧ s.drive.a.length = s.cfg.n ∧ s.drive.b.length = s.cfg.n ∧ s.drive.x.width = s.cfg.b := by decide
theorem witness_AcceptanceCapturesThePorts_next :
    ∃ t, step ({ State.reset with script := [offer] } : State) = .next t ∧ t.busy = true := ⟨_, rfl, rfl⟩
theorem witness_OfferWhileNotReadyHasNoEffect :
    ({ fatalNow with script := [offer] } : State).cmdReady = false ∧ rstEdge.cmdValid = false
    ∧ (Drive.idle Config.tryte).rst = ({ fatalNow with script := [offer] } : State).drive.rst
    ∧ ({ State.reset with script := [{ offer with rst := true }] } : State).cmdReady = false
    ∧ rstEdge.rst = ({ State.reset with script := [{ offer with rst := true }] } : State).drive.rst := by decide
theorem witness_CommandInFlightCompletes :
    let s : State := { placed Config.tryte 0x0F 0x01F 0x004 0 0 with remaining := 2, script := [offer, offer, offer, rstEdge] }
    s.busy = true ∧ (∀ p ∈ s.script.take (s.remaining + 1), p.rst = false) ∧ nextOf (execCaptured s) ≠ none := by decide
theorem witness_AcceptedCommandCompletesAfterItsLatency :
    let s : State := { State.reset with script := [offer] }
    s.accepts = true
    ∧ (∀ p ∈ s.script.tail.take (latencyLess1 s.cfg (capture s.cfg s.drive) + 1), p.rst = false)
    ∧ nextOf (execCaptured { s with captured := capture s.cfg s.drive }) ≠ none :=
  ⟨by decide, fun p hp => absurd hp (by simp), by decide⟩
theorem witness_FatalStateLastsUntilReset :
    let s : State := { fatalNow with script := [offer, offer, rstEdge] }
    s.Inv ∧ s.fatal = true ∧ (∀ p ∈ s.script.take 2, p.rst = false)
    ∧ ({ fatalNow with script := [rstEdge] } : State).drive.rst = true := by decide
/-- The last clause of FatalStateLastsUntilReset: the fault shows after one edge, and the host then resets. -/
theorem witness_FatalStateLastsUntilReset_run :
    let s : State := { placed Config.tryte 0x15 0x01F 0 0 0 with script := [offer] }
    1 ≤ s.script.length ∧ 1 ≤ 3 ∧ s.fatal = false
    ∧ verdictFrom [s.captured] 1 { issued := [s.captured], settled := false } s = .error .fatalState := by decide
theorem witness_DecodeOfEncode :
    Instr.WellFormed (.rdrange 255 0 .w32) = true ∧ Instr.WellFormed .nop = true ∧ isArith .nop = false := by decide
theorem witness_EncodeOfDecode : decode false 0x0062E00C#32 = .ok (.rdrange 0 23 .w32) := by decide
theorem witness_IllegalWordsAreThoseOfR62_unassigned :
    IllegalWord true 0x00000016#32 ∧ IllegalWord true 0x00800000#32 := by decide
theorem witness_IllegalWordsAreThoseOfR62_unused :
    IllegalWord true 0x00000020#32 ∧ IllegalWord true 0x00002013#32 ∧ IllegalWord true 0x0020000D#32 := by decide
theorem witness_IllegalWordsAreThoseOfR62_arithmetic : IllegalWord false 0x0000000E#32 ∧ ¬ IllegalWord false 0x0000000D#32 := by
  decide
theorem witness_IllegalWordsAreThoseOfR62_legal : ¬ IllegalWord true 0x007FFFEC#32 := by decide
theorem witness_IllegalCommandWritesOnlyStatus :
    let s := placed Config.tryte 0x80000015 0 0 0 0
    s.drive.rst = false ∧ s.busy = true ∧ s.remaining = 0 ∧ IllegalWord s.cfg.arithCap s.captured.cmd := by decide
theorem witness_LegalWordsMatchExactlyOneRow :
    decode true 0x007FFFEC#32 = .ok (.rdrange 255 255 .w32)
    ∧ (⟨"RDRANGE", 0x0000000C#32, 0xFF80001F#32⟩ : OpcodeRow) ∈ opcodeMap
    ∧ 0x007FFFEC#32 &&& 0xFF80001F#32 = 0x0000000C#32 := by decide
theorem witness_WordPackingIsThatOfR52 : five[5]? = some .zero ∧ five[0]? = some .neg := by decide
theorem witness_WordsAreUniqueForTheirValue : five.length = five.length ∧ val five = val five ∧ val five = 5 := by decide
theorem witness_CommandsWriteOnlyTheirRegisters :
    nextOf (exec .sign (st 0x015 0 0 0)) ≠ none ∧ writesY .sign = false
    ∧ (nextOf (exec .tfromint (st 0 0 0 7))).map (·.status) = some 1#4
    ∧ (nextOf (exec .divrem (st 0x01F 0 0 0))).map (·.status) = some 4#4 := by decide
theorem witness_StatusCodesAreThoseOfR160 :
    (nextOf (execCaptured (placed Config.tryte 0x0000200D 0 0 0 5))).map (·.status) = some 3#4
    ∧ (nextOf (execCaptured (placed Config.tryte 0x0000C00C 0 0 0 0))).map (·.status) = some 2#4
    ∧ (nextOf (execCaptured (placed Config.tryte 0x80000015 0 0 0 0))).map (·.status) = some 5#4 := by decide
theorem witness_IllegalTritCodeIsRefused :
    0b10#2 ∈ readCodes .divrem (st 0x080 0 0 0).captured ∧ 0b10#2 ∈ readCodes .tadd (st 0 0 0b10#2 0).captured
    ∧ 0b10#2 ∉ readCodes .tneg (st 0x800 0 0 0).captured := by decide
theorem witness_UnreadPortsHaveNoEffect :
    let s := st 0x01F 0 0 0
    let c := (st 0x01F 0xAAA 0b10#2 9).captured
    readCodes .neg c = readCodes .neg s.captured ∧ c.a.length = s.captured.a.length ∧ readsX .neg = false
    ∧ c ≠ s.captured := by decide
theorem witness_NopOnlyClearsStatus :
    (0#32).toNat % 2 ^ 5 = 0 ∧ (0x00000020#32).toNat % 2 ^ 5 = 0 ∧ 0x00000020#32 ≠ 0#32 := by decide
theorem witness_TaddAddsThreeTrits :
    (st 0x801 0x801 0b01#2 0).HasA0 .pos ∧ (st 0x801 0x801 0b01#2 0).HasB0 .pos ∧ (st 0x801 0x801 0b01#2 0).HasCin .pos := by
  decide
theorem witness_TritCommandsWriteOneDigit : (st 0x803 0x803 0 0).HasA0 .neg ∧ (st 0x803 0x803 0 0).HasB0 .neg := by decide
theorem witness_TfromintChecksTheDigit :
    (st 0 0 0 (-1)).operandX = Trit.neg.toInt ∧ (st 0 0 0 1).operandX = Trit.pos.toInt
    ∧ (st 0 0 0 2).captured.x.width = (st 0 0 0 2).cfg.b
    ∧ (st 0 0 0 2).operandX ≠ -1 ∧ (st 0 0 0 2).operandX ≠ 0 ∧ (st 0 0 0 2).operandX ≠ 1
    ∧ (st 0 0 0 (-32768)).operandX = -32768 := by decide

/-- For TobinGivesTheValue, SignIsTheTopNonZeroTrit, IszeroTestsEveryTrit, NegNegatesEveryTrit, NegAndAbsAreExact,
ShlMovesTheTrits and ShlMultipliesByAPowerOfThree. -/
theorem witness_one_word_operand : (st 0x01F 0 0 0).HasA five ∧ (st 0 0 0 0).HasA none6 ∧ (st 0 0 0 0).cfg.Legal
    ∧ (st 0xFFF 0 0 0).HasA (List.replicate 6 .neg) := by decide

/-- For CmpDecidesAtTheTopDifference, SignZeroAndOrderReadTheValues, AddRipplesFromCarryZero,
AddAndSubWrapModuloTheSpan and MulWrapsModuloTheSpan. -/
theorem witness_two_word_operands : (st 0x01F 0x004 0 0).HasA five ∧ (st 0x01F 0x004 0 0).HasB three
    ∧ (st 0x555 0x555 0 0).HasA (List.replicate 6 .pos) ∧ (st 0x555 0x555 0 0).HasB (List.replicate 6 .pos) := by decide

theorem witness_BinaryRoundTrip :
    let s := st 0 0 0 (-364)
    let u := st 0xFFF 0 0 0
    s.cfg.Legal ∧ s.operandX.natAbs ≤ maxValue s.cfg.n ∧ u.cfg = s.cfg
    ∧ (nextOf (exec .frombin s)).map (fun t => encWord t.y) = some u.captured.a := by decide
theorem witness_RdrangeReadsTheSpan :
    (st 0x01F 0 0 0).HasA five ∧ ¬ (0 ≤ 6 ∧ 6 < Config.tryte.n) ∧ ¬ (3 ≤ 2 ∧ 2 < Config.tryte.n)
    ∧ 5 ≤ 5 ∧ 5 < Config.tryte.n := by decide
theorem witness_RdrangeReadsTheSpan_fits :
    (st 0x155 0 0 0).HasA [.pos, .pos, .pos, .pos, .pos, .zero]
    ∧ val (([.pos, .pos, .pos, .pos, .pos, .zero] : Word).drop 0 |>.take (5 - 0 + 1)) = 121
    ∧ (-(2 ^ (8 - 1)) ≤ (121 : Int) ∧ (121 : Int) ≤ 2 ^ (8 - 1) - 1) := by decide
theorem witness_RdrangeReadsTheSpan_overflows :
    (st 0x555 0 0 0).HasA (List.replicate 6 .pos)
    ∧ val (((List.replicate 6 .pos : Word).drop 0).take (5 - 0 + 1)) = 364
    ∧ ¬ (-(2 ^ (8 - 1)) ≤ (364 : Int) ∧ (364 : Int) ≤ 2 ^ (8 - 1) - 1) := by decide
theorem witness_RdrangeOfPortWidthNeverOverflows :
    (st 0x01F 0 0 0).cfg.Legal ∧ (st 0x01F 0 0 0).HasA five ∧ 0 ≤ 5 ∧ 5 < (st 0x01F 0 0 0).cfg.n := by decide
theorem witness_WrrangeReplacesTheSpan :
    (st 0x01F 0 0 4).HasA five ∧ (st 0x01F 0 0 4).operandX.natAbs ≤ maxValue (1 - 0 + 1)
    ∧ maxValue (1 - 0 + 1) < (st 0x01F 0 0 5).operandX.natAbs ∧ (st 0x01F 0 0 5).HasA five
    ∧ ¬ (0 ≤ 6 ∧ 6 < (st 0x01F 0 0 4).cfg.n) ∧ 5 ≤ 5 ∧ 5 < (st 0x01F 0 0 4).cfg.n := by decide
theorem witness_SubrangeRoundTrip :
    let s := st 0x171 0 0 (-4)
    let u := st 0x17D 0 0 0
    s.cfg.Legal ∧ s.HasA [.pos, .zero, .neg, .pos, .pos, .zero]
    ∧ (nextOf (exec (.wrrange 1 2) s)).map (fun t => (t.status, encWord t.y)) = some (0#4, u.captured.a) ∧ u.cfg = s.cfg
    ∧ (3 ≤ 5 ∧ 5 < s.cfg.n ∧ (5 < 1 ∨ 2 < 3)) ∧ (0 ≤ 0 ∧ 0 < s.cfg.n ∧ (0 < 1 ∨ 2 < 0)) := by decide

/-- For AddcRipplesTheCarry and AddcIsExactWithItsCarry. -/
theorem witness_carry_operand : (st 0x01F 0x004 0b11#2 0).HasA five ∧ (st 0x01F 0x004 0b11#2 0).HasB three
    ∧ (st 0x01F 0x004 0b11#2 0).HasCin .neg := by decide

/-- For SubRipplesTheNegation and DivremNegatesTheQuotientOnly. -/
theorem witness_negated_operand :
    let s := st 0x01F 0x004 0 0
    let u := st 0x01F 0x00C 0 0
    s.HasA five ∧ s.HasB three ∧ (∃ t ∈ three, t ≠ Trit.zero) ∧ u.cfg = s.cfg ∧ u.HasA five ∧ u.HasB minusThree
    ∧ minusThree.map Trit.toInt = three.map (fun t => -t.toInt) := by decide
/-- The two clauses of AbsNegatesOnlyNegativeWords: a word whose sign is Neg, and the all-Zero word. -/
theorem witness_AbsNegatesOnlyNegativeWords :
    ((st 0x00C 0 0 0).HasA minusThree ∧ IsSign minusThree .neg) ∧ ((st 0 0 0 0).HasA none6 ∧ IsSign none6 .zero) := by
  refine ⟨⟨by decide, .inr ⟨by decide, 1, rfl, fun j u hj hu => ?_⟩⟩, by decide, .inl ⟨rfl, by decide⟩⟩
  have hmem : u ∈ minusThree.drop 2 := List.mem_of_getElem? (i := j - 2) (by
    rw [List.getElem?_drop, ← hu]; congr 1; omega)
  simpa [minusThree] using hmem
theorem witness_DivremExactIsOddInTheDividend :
    let s := placed { Config.tryte with divTentative := .exact } 0 0x004 0x004 0 0
    let u := placed { Config.tryte with divTentative := .exact } 0 0x00C 0x004 0 0
    s.HasA three ∧ s.HasB three ∧ (∃ t ∈ three, t ≠ Trit.zero) ∧ s.cfg.divTentative = .exact ∧ u.cfg = s.cfg
    ∧ u.HasA minusThree ∧ u.HasB three ∧ minusThree.map Trit.toInt = three.map (fun t => -t.toInt) := by decide
theorem witness_NegNegatesEveryTrit : (st 0x035 0 0 0).captured.a = encWord (five.map tritNeg) := by decide
theorem witness_ZeroDivisorIsFatal :
    (st 0x01F 0 0 0).HasA five ∧ (st 0x01F 0 0 0).HasB none6 ∧ ∀ t ∈ none6, t = Trit.zero := by decide

/-- For DivremRefinesTheIntegerLoop, DivremHoldsModuloTheSpan and DivremReadingsAgree: 10 / 3, the example of R147. -/
theorem witness_division :
    let s := st 0x011 0x004 0 0
    s.HasA ten ∧ s.HasB three ∧ IsMsb three 1
    ∧ (val ten).natAbs + (val three).natAbs * 3 ^ (s.cfg.n - 1 - 1) ≤ maxValue s.cfg.n := by decide
/-- The clauses of DivremHoldsModuloTheSpan: a zero dividend, and the other reading. -/
theorem witness_division_clauses :
    (st 0 0x004 0 0).HasA none6 ∧ (st 0 0x004 0 0).HasB three ∧ (∀ t ∈ none6, t = Trit.zero)
    ∧ (placed { Config.tryte with divTentative := .exact } 0 0x011 0x004 0 0).HasA ten
    ∧ (placed { Config.tryte with divTentative := .exact } 0 0x011 0x004 0 0).cfg.divTentative = .exact
    ∧ IsMsb (List.replicate 6 Trit.neg) 5 ∧ IsMsb [.pos, .zero, .zero, .zero, .zero, .zero] 0 := by decide

end Sys2Proof.Tests
end

section
/-! PROOFS. The handshake outputs of 10_state.md R32: `cmd_ready` in a cycle, and `done` after each kind of edge. -/

namespace Sys2Proof.Machine

/-- `cmd_ready` in any cycle (R32 outside reset, 70_reset_and_hazards.md R180 while `rst` = 1). -/
theorem State.cmdReady_iff (s : State) :
    s.cmdReady = true ↔ s.busy = false ∧ s.fatal = false ∧ s.drive.rst = false := by
  simp [State.cmdReady, and_assoc]

/-- A completion raises `done` whatever the command answered, the DIVREM that sets FATAL included. -/
theorem done_of_completeWith {a : Answer} {t : State} (h : completeWith a = .next t) : t.done = true := by
  obtain ⟨u, -, rfl⟩ := (completeWith_next_iff a t).1 h
  exact completionEdge_done u

/-- The completion edge is the only edge of `step_cases` that raises `done`. -/
theorem step_done_iff {s t : State} (h : step s = .next t) :
    t.done = true ↔ s.drive.rst = false ∧ s.busy = true ∧ s.remaining = 0 := by
  obtain ⟨hr, hs⟩ | ⟨hr, hb, hz, hs⟩ | ⟨-, -, hz, hs⟩ | ⟨-, hb, -, hs⟩ | ⟨-, hb, -, hs⟩ := step_cases s
  · cases hs.symm.trans h; simp [hr]
  · exact iff_of_true (done_of_completeWith (hs.symm.trans h)) ⟨hr, hb, hz⟩
  · cases hs.symm.trans h; simp [hz]
  · cases hs.symm.trans h; simp [hb]
  · cases hs.symm.trans h; simp [hb]

/-- The block is ready right after a reset edge, unless the host still holds reset. -/
theorem resetEdge_cmdReady_iff (s : State) : (resetEdge s).cmdReady = true ↔ (resetEdge s).drive.rst = false := by
  simp [State.cmdReady_iff]

/-- Settles O8: `cmd_ready` by its definition, `done` by the five kinds of edge, and the reset values by the reset edge. -/
theorem doneAndReadyAreThoseOfR32 : Obligations.DoneAndReadyAreThoseOfR32 := by
  refine ⟨fun s hr => ?ready, fun s t h => step_done_iff h, fun s t hr h => ?afterReset⟩
  case ready => simp [State.cmdReady_iff, hr]
  case afterReset =>
    rw [step_of_rst hr] at h
    cases h
    exact ⟨resetEdge_done s, (resetEdge_cmdReady_iff s).2⟩

end Sys2Proof.Machine
end

section
/-! PROOFS. Which command words are legal (30_encoding.md R59 to R63), and the rows of the opcode map R61 as masks and patterns
over the fields of R54. -/

namespace Sys2Proof

/-! ## The fields as numbers (R54) -/

theorem opcField_eq_mod (w : BitVec 32) : opcField w = w.toNat % 2 ^ 5 := by
  simp [opcField]

theorem startField_eq_div_mod (w : BitVec 32) : startField w = w.toNat / 2 ^ 5 % 2 ^ 8 := by
  simp [startField, Nat.shiftRight_eq_div_pow]

theorem stopField_eq_div_mod (w : BitVec 32) : stopField w = w.toNat / 2 ^ 13 % 2 ^ 8 := by
  simp [stopField, Nat.shiftRight_eq_div_pow]

theorem widthField_eq_zero_iff (w : BitVec 32) : widthField w = 0#2 ↔ w.toNat / 2 ^ 21 % 2 ^ 2 = 0 := by
  simp [widthField, ← BitVec.toNat_inj, Nat.shiftRight_eq_div_pow]

theorem rsvField_eq_zero_iff (w : BitVec 32) : rsvField w = 0#9 ↔ w.toNat / 2 ^ 23 = 0 := by
  have hw := w.isLt
  simp only [rsvField, ← BitVec.toNat_inj, BitVec.extractLsb'_toNat, Nat.shiftRight_eq_div_pow, BitVec.toNat_ofNat]
  omega

/-! ## The opcode decides the row -/

/-- R61 assigns an instruction to the opcodes below 0x16. -/
theorem exists_instrOfOpcode {opc : Nat} (h : opc < 0x16) (start stop : Nat) (w : WidthSel) :
    ∃ i, instrOfOpcode opc start stop w = some i := by
  interval_cases opc <;> exact ⟨_, rfl⟩

/-- The instruction that R61 assigns to an opcode has that opcode. -/
theorem opcodeOf_of_instrOfOpcode {opc start stop : Nat} {w : WidthSel} {i : Instr}
    (h : instrOfOpcode opc start stop w = some i) : (opcodeOf i).toNat = opc := by
  unfold instrOfOpcode at h
  split at h <;> cases h <;> rfl

theorem opcodeOf_lt (i : Instr) : (opcodeOf i).toNat < 0x16 := by
  cases i <;> simp [opcodeOf]

theorem usesStart_iff (i : Instr) :
    usesStart i = true ↔ (opcodeOf i).toNat = 0x0C ∨ (opcodeOf i).toNat = 0x0D ∨ (opcodeOf i).toNat = 0x13 := by
  cases i <;> simp [usesStart, opcodeOf]

theorem usesStop_iff (i : Instr) : usesStop i = true ↔ (opcodeOf i).toNat = 0x0C ∨ (opcodeOf i).toNat = 0x0D := by
  cases i <;> simp [usesStop, opcodeOf]

theorem usesWidth_iff (i : Instr) : usesWidth i = true ↔ (opcodeOf i).toNat = 0x0C := by
  cases i <;> simp [usesWidth, opcodeOf]

theorem isArith_iff (i : Instr) : isArith i = true ↔ 0x0E ≤ (opcodeOf i).toNat ∧ (opcodeOf i).toNat ≤ 0x15 := by
  cases i <;> simp [isArith, opcodeOf]

/-! ## When a word decodes -/

/-- R60: a field of the word that is not 0 is one that the instruction uses. -/
def UnusedFieldsZero (w : BitVec 32) (i : Instr) : Prop :=
  (startField w ≠ 0 → usesStart i = true) ∧ (stopField w ≠ 0 → usesStop i = true)
    ∧ (widthField w ≠ 0#2 → usesWidth i = true)

/-- A check of the decoder that answers an error lets a word through iff it does not fire. -/
theorem check_eq_ok_iff {fires : Prop} [Decidable fires] {e : Illegal} {rest : Except Illegal Instr} {i : Instr} :
    (if fires then .error e else rest) = .ok i ↔ ¬ fires ∧ rest = .ok i := by
  split <;> simp [*]

/-- The one way through the checks of `decode`. -/
theorem decode_eq_ok_iff (cap : Bool) (w : BitVec 32) (i : Instr) :
    decode cap w = .ok i ↔
      rsvField w = 0#9
        ∧ instrOfOpcode (opcField w) (startField w) (stopField w) (widthOfField (widthField w)) = some i
        ∧ UnusedFieldsZero w i ∧ (cap = false → ¬ isArith i = true) := by
  rw [decode, check_eq_ok_iff, not_ne_iff]
  cases instrOfOpcode (opcField w) (startField w) (stopField w) (widthOfField (widthField w)) with
  | none => simp
  | some j =>
    simp only [check_eq_ok_iff, Except.ok.injEq, Option.some.injEq]
    by_cases hj : j = i
    · subst hj
      simp [UnusedFieldsZero, and_assoc]
    · simp [hj]

/-- The use of the fields by opcode, as R60 and R62 state it. -/
theorem unusedFieldsZero_iff {w : BitVec 32} {i : Instr} (hopc : (opcodeOf i).toNat = opcField w) :
    UnusedFieldsZero w i ↔
      (startField w ≠ 0 → opcField w = 0x0C ∨ opcField w = 0x0D ∨ opcField w = 0x13)
        ∧ (stopField w ≠ 0 → opcField w = 0x0C ∨ opcField w = 0x0D)
        ∧ (widthField w ≠ 0#2 → opcField w = 0x0C) := by
  rw [UnusedFieldsZero, usesStart_iff, usesStop_iff, usesWidth_iff, hopc]

/-- R62 read the other way: what a legal word satisfies, by its fields. -/
theorem exists_decode_eq_ok_iff (cap : Bool) (w : BitVec 32) :
    (∃ i, decode cap w = .ok i) ↔
      opcField w < 0x16 ∧ rsvField w = 0#9
        ∧ (startField w ≠ 0 → opcField w = 0x0C ∨ opcField w = 0x0D ∨ opcField w = 0x13)
        ∧ (stopField w ≠ 0 → opcField w = 0x0C ∨ opcField w = 0x0D)
        ∧ (widthField w ≠ 0#2 → opcField w = 0x0C)
        ∧ (cap = false → ¬ (0x0E ≤ opcField w ∧ opcField w ≤ 0x15)) := by
  constructor
  · rintro ⟨i, h⟩
    obtain ⟨hrsv, hi, hunused, hcap⟩ := (decode_eq_ok_iff cap w i).1 h
    have hopc := opcodeOf_of_instrOfOpcode hi
    obtain ⟨hstart, hstop, hwidth⟩ := (unusedFieldsZero_iff hopc).1 hunused
    rw [isArith_iff, hopc] at hcap
    exact ⟨hopc ▸ opcodeOf_lt i, hrsv, hstart, hstop, hwidth, hcap⟩
  · rintro ⟨hlt, hrsv, hstart, hstop, hwidth, hcap⟩
    obtain ⟨i, hi⟩ := exists_instrOfOpcode hlt (startField w) (stopField w) (widthOfField (widthField w))
    have hopc := opcodeOf_of_instrOfOpcode hi
    rw [← hopc, ← isArith_iff] at hcap
    have hunused := (unusedFieldsZero_iff hopc).2 ⟨hstart, hstop, hwidth⟩
    exact ⟨i, (decode_eq_ok_iff cap w i).2 ⟨hrsv, hi, hunused, hcap⟩⟩

theorem exists_decode_eq_error_iff (cap : Bool) (w : BitVec 32) :
    (∃ e, decode cap w = .error e) ↔ ¬ ∃ i, decode cap w = .ok i := by
  cases decode cap w <;> simp

/-- Settles O17: the clauses of R62 are, one for one, the failures of the checks a legal word passes. -/
theorem illegalWordsAreThoseOfR62 : Obligations.IllegalWordsAreThoseOfR62 := by
  intro cap w
  rw [exists_decode_eq_error_iff, exists_decode_eq_ok_iff, opcField_eq_mod, startField_eq_div_mod,
    stopField_eq_div_mod, rsvField_eq_zero_iff, ne_eq (widthField w), widthField_eq_zero_iff]
  simp only [Classical.not_and_iff_not_or_not, Classical.not_imp, not_or, Nat.not_lt, not_not, ne_eq,
    Machine.IllegalWord]

/-! ## The rows of the opcode map -/

/-- The bits of an n-bit field that a row fixes: none if its command uses the field, else all of them (R60, R61). -/
def fixedBits (n : Nat) (used : Bool) : BitVec n := if used then 0#n else BitVec.allOnes n

/-- The bits of the command word that an instruction's row fixes: RSV, OPC and the unused fields. -/
def rowMask (i : Instr) : BitVec 32 :=
  BitVec.allOnes 9 ++ fixedBits 2 (usesWidth i) ++ fixedBits 8 (usesStop i) ++ fixedBits 8 (usesStart i)
    ++ BitVec.allOnes 5

/-- The row of an instruction's mnemonic, by the layout R54 and the use of the fields R60. -/
def rowOf (i : Instr) : OpcodeRow := ⟨mnemonicOf i, packFields (opcodeOf i) 0#8 0#8 0#2, rowMask i⟩

/-- R61 lists the rows in the order of their opcodes. -/
theorem getElem?_opcodeMap (i : Instr) : opcodeMap[(opcodeOf i).toNat]? = some (rowOf i) := by
  cases i <;> simp only [rowOf, rowMask, mnemonicOf, opcodeOf, usesStart, usesStop, usesWidth] <;> decide

theorem rowOf_mem (i : Instr) : rowOf i ∈ opcodeMap := List.mem_of_getElem? (getElem?_opcodeMap i)

theorem rowOf_eq_of_opcodeOf_eq {i j : Instr} (h : opcodeOf i = opcodeOf j) : rowOf i = rowOf j :=
  Option.some.inj <| by rw [← getElem?_opcodeMap, h, getElem?_opcodeMap]

/-- Every row of the opcode map is the row of an instruction. -/
theorem exists_rowOf_eq {row : OpcodeRow} (h : row ∈ opcodeMap) : ∃ i, rowOf i = row := by
  obtain ⟨opc, hlt, hrow⟩ := List.mem_iff_getElem.1 h
  obtain ⟨i, hi⟩ := exists_instrOfOpcode hlt 0 0 .portWidth
  have hat := getElem?_opcodeMap i
  rw [opcodeOf_of_instrOfOpcode hi, List.getElem?_eq_getElem hlt, hrow] at hat
  exact ⟨i, (Option.some.inj hat).symm⟩

/-! ## When a word matches a row -/

/-- A masked comparison goes field by field. -/
theorem append_and_append_eq_iff {m n : Nat} (f k p : BitVec m) (f' k' p' : BitVec n) :
    (f ++ f') &&& (k ++ k') = p ++ p' ↔ f &&& k = p ∧ f' &&& k' = p' := by
  rw [BitVec.and_append]
  constructor
  · intro h
    have left := congrArg (BitVec.extractLsb' n m) h
    have right := congrArg (BitVec.extractLsb' 0 n) h
    rw [BitVec.extractLsb'_append_eq_left, BitVec.extractLsb'_append_eq_left] at left
    rw [BitVec.extractLsb'_append_eq_right, BitVec.extractLsb'_append_eq_right] at right
    exact ⟨left, right⟩
  · rintro ⟨rfl, rfl⟩
    rfl

/-- R54: the command word is its five fields, high to low. -/
theorem fields_append (w : BitVec 32) :
    rsvField w ++ widthField w ++ w.extractLsb' 13 8 ++ w.extractLsb' 5 8 ++ w.extractLsb' 0 5 = w := by
  simp only [rsvField, widthField]
  rw [BitVec.extractLsb'_append_extractLsb'_eq_extractLsb' (show 23 = 21 + 2 from rfl),
    BitVec.extractLsb'_append_extractLsb'_eq_extractLsb' (show 21 = 13 + 8 from rfl),
    BitVec.extractLsb'_append_extractLsb'_eq_extractLsb' (show 13 = 5 + 8 from rfl),
    BitVec.extractLsb'_append_extractLsb'_eq_extractLsb' (show 5 = 0 + 5 from rfl)]
  exact BitVec.extractLsb'_eq_self

/-- Under its mask a field is 0 iff it is 0 or used. -/
theorem and_fixedBits_eq_zero_iff {n : Nat} (f : BitVec n) (used : Bool) :
    f &&& fixedBits n used = 0#n ↔ (f ≠ 0#n → used = true) := by
  cases used <;> simp [fixedBits]

/-- What it says of a word's fields that it matches the row of an instruction. -/
theorem matches_rowOf_iff (w : BitVec 32) (i : Instr) :
    w &&& (rowOf i).mask = (rowOf i).pattern ↔
      rsvField w = 0#9 ∧ opcField w = (opcodeOf i).toNat ∧ UnusedFieldsZero w i := by
  have hstart : startField w ≠ 0 ↔ w.extractLsb' 5 8 ≠ 0#8 := by simp [startField, ← BitVec.toNat_inj]
  have hstop : stopField w ≠ 0 ↔ w.extractLsb' 13 8 ≠ 0#8 := by simp [stopField, ← BitVec.toNat_inj]
  have hopc : opcField w = (opcodeOf i).toNat ↔ w.extractLsb' 0 5 = opcodeOf i := BitVec.toNat_inj
  rw [UnusedFieldsZero, hstart, hstop, hopc]
  simp only [rowOf, rowMask, packFields]
  conv_lhs => rw [← fields_append w]
  rw [append_and_append_eq_iff (m := 27) (n := 5), append_and_append_eq_iff (m := 19) (n := 8),
    append_and_append_eq_iff (m := 11) (n := 8), append_and_append_eq_iff (m := 9) (n := 2)]
  simp only [BitVec.and_allOnes, and_fixedBits_eq_zero_iff]
  tauto

/-- Settles O19: a legal word matches its instruction's row, a row fixes the opcode, so there is no other one; and the
conditions of a row are those under which `decode` answers. -/
theorem legalWordsMatchExactlyOneRow : Obligations.LegalWordsMatchExactlyOneRow := by
  refine ⟨fun w i h => ?legal, fun w row hrow h => ?matching⟩
  case legal =>
    obtain ⟨hrsv, hi, hunused, -⟩ := (decode_eq_ok_iff true w i).1 h
    have hopc := opcodeOf_of_instrOfOpcode hi
    have hmatch := (matches_rowOf_iff w i).2 ⟨hrsv, hopc.symm, hunused⟩
    refine ⟨rowOf i, rowOf_mem i, rfl, hmatch, fun other hother h' => ?_⟩
    obtain ⟨j, rfl⟩ := exists_rowOf_eq hother
    obtain ⟨-, hopc', -⟩ := (matches_rowOf_iff w j).1 h'
    exact rowOf_eq_of_opcodeOf_eq (BitVec.eq_of_toNat_eq (hopc'.symm.trans hopc.symm))
  case matching =>
    obtain ⟨j, rfl⟩ := exists_rowOf_eq hrow
    obtain ⟨hrsv, hopc, -⟩ := (matches_rowOf_iff w j).1 h
    obtain ⟨i, hi⟩ := exists_instrOfOpcode (hopc ▸ opcodeOf_lt j) (startField w) (stopField w)
      (widthOfField (widthField w))
    have hrow : rowOf i = rowOf j :=
      rowOf_eq_of_opcodeOf_eq (BitVec.eq_of_toNat_eq ((opcodeOf_of_instrOfOpcode hi).trans hopc))
    rw [← hrow] at h ⊢
    obtain ⟨-, -, hunused⟩ := (matches_rowOf_iff w i).1 h
    exact ⟨i, (decode_eq_ok_iff true w i).2 ⟨hrsv, hi, hunused, nofun⟩, rfl⟩

end Sys2Proof
end

section
/-! PROOFS. The packing of a word on its bus (30_encoding.md R52): a bus of trit codes is the base-4 numeral whose digit i is
the code of trit i. The lemmas hold of every bus, the illegal code 10 included; legality enters only when a word is read. -/

namespace Sys2Proof.Machine

/-- A bus of N codes is a number of 2N bits (R52). -/
theorem busBits_lt (p : Bus) : busBits p < 4 ^ p.length := by
  induction p with
  | nil => simp [busBits]
  | cons c p ih =>
    have hc := c.isLt
    simp only [busBits, List.length_cons, pow_succ]
    omega

/-- Digit i of the number is code i of the bus: p[2i+1:2i] of R52. -/
theorem busBits_digit {p : Bus} {i : Nat} {c : Code} (h : p[i]? = some c) : busBits p / 4 ^ i % 4 = c.toNat := by
  induction p generalizing i with
  | nil => simp at h
  | cons d p ih =>
    have hd := d.isLt
    cases i with
    | zero =>
      obtain rfl : d = c := by simpa using h
      simp only [busBits, pow_zero, Nat.div_one]
      omega
    | succ i =>
      have shifted : busBits (d :: p) / 4 ^ (i + 1) = busBits p / 4 ^ i := by
        rw [pow_succ', ← Nat.div_div_eq_div_mul, busBits, Nat.add_mul_div_left _ _ (by decide),
          Nat.div_eq_of_lt hd, Nat.zero_add]
      rw [shifted]
      exact ih (by simpa using h)

/-- The number determines the bus. -/
@[simp] theorem busOfBits_busBits (p : Bus) : busOfBits p.length (busBits p) = p := by
  induction p with
  | nil => rfl
  | cons c p ih =>
    have hc := c.isLt
    have low : BitVec.ofNat 2 (busBits (c :: p)) = c := by
      apply BitVec.eq_of_toNat_eq
      simp only [busBits, BitVec.toNat_ofNat]
      omega
    have rest : busBits (c :: p) / 4 = busBits p := by
      simp only [busBits]
      omega
    rw [List.length_cons, busOfBits, low, rest, ih]

@[simp] theorem busBits_encWord_zeroWord (n : Nat) : busBits (encWord (zeroWord n)) = 0 := by
  induction n with
  | zero => rfl
  | succ n ih => simpa [zeroWord, encWord, List.replicate_succ, busBits, enc] using ih

/-- Settles O20: the bus lemmas at the bus of a word; the two examples are evaluated. -/
theorem wordPackingIsThatOfR52 : Obligations.WordPackingIsThatOfR52 := by
  refine ⟨fun w => ⟨?width, fun i t ht => ?digit, ?readBack⟩, busBits_encWord_zeroWord, by decide, by decide⟩
  case width => simpa [pow_mul] using busBits_lt (encWord w)
  case digit =>
    have hc : (encWord w)[i]? = some (enc t) := by simp [encWord, ht]
    simpa [pow_mul] using busBits_digit hc
  case readBack => simpa using congrArg decBus (busOfBits_busBits (encWord w))

end Sys2Proof.Machine
end

section
/-! PROOFS. How every command ends (40_common.md R70 to R72): first the codes it reads are checked, all of them, then its
operation either succeeds and writes registers of its "writes" column, or raises one of its own conditions. -/

namespace Sys2Proof.Machine

/-! ## The check of the codes that are read (R71) -/

/-- `a` is the answer of a command in `s` that reads `codes` first: with a code 10 among them it raises ILLEGAL_TRIT_CODE and
that is all, else its operation's answer has the property `P`. -/
def AfterReads (s : State) (codes : List Code) (P : Answer → Prop) (a : Answer) : Prop :=
  (0b10#2 ∈ codes → a = raise .illegalTritCode s) ∧ (0b10#2 ∉ codes → P a)

theorem AfterReads.nil {s : State} {P : Answer → Prop} {a : Answer} (h : P a) : AfterReads s [] P a :=
  ⟨nofun, fun _ => h⟩

/-- Reading a trit puts its code before those that are read next. -/
theorem AfterReads.withTrit {s : State} {c : Code} {codes : List Code} {P : Answer → Prop} {k : Trit → Answer}
    (h : ∀ t, AfterReads s codes P (k t)) : AfterReads s (c :: codes) P (withTrit c s k) := by
  obtain ⟨t, hc, ht⟩ | ⟨hc, ht⟩ := withTrit_cases c s k
  · obtain ⟨hillegal, hlegal⟩ := h t
    have hne : 0b10#2 ≠ c := hc ▸ (enc_ne_illegal t).symm
    rw [AfterReads, ht, List.mem_cons, or_iff_right hne]
    exact ⟨hillegal, hlegal⟩
  · exact ⟨fun _ => ht, fun hlegal => absurd (List.mem_cons.2 (.inl hc.symm)) hlegal⟩

/-- Reading a word puts the codes of its bus before those that are read next. -/
theorem AfterReads.withWord {s : State} {p : Bus} {codes : List Code} {P : Answer → Prop} {k : Word → Answer}
    (h : ∀ w, AfterReads s codes P (k w)) : AfterReads s (p ++ codes) P (withWord p s k) := by
  obtain ⟨w, hp, hw⟩ | ⟨hp, hw⟩ := withWord_cases p s k
  · obtain ⟨hillegal, hlegal⟩ := h w
    have hnot : 0b10#2 ∉ p := fun hmem => by
      rw [← decBus_eq_none_iff, hp, decBus_encWord] at hmem
      cases hmem
    rw [AfterReads, hw, List.mem_append, or_iff_right hnot]
    exact ⟨hillegal, hlegal⟩
  · exact ⟨fun _ => hw, fun hlegal => absurd (List.mem_append_left codes hp) hlegal⟩

/-- A word that is read last. -/
theorem AfterReads.lastWord {s : State} {p : Bus} {P : Answer → Prop} {k : Word → Answer} (h : ∀ w, P (k w)) :
    AfterReads s p P (Machine.withWord p s k) := by
  simpa using AfterReads.withWord (p := p) fun w => .nil (h w)

/-! ## What an operation writes (R72) -/

/-- `u` is `s` after writes to registers of the "writes" column of `i` (30_encoding.md R61), and to nothing else. -/
inductive WrittenBy (i : Instr) (s : State) : State → Prop
  | none : WrittenBy i s s
  | setY {u : State} (w : Word) : writesY i = true → WrittenBy i s u → WrittenBy i s (u.setY w)
  | setR {u : State} (w : Word) : writesR i = true → WrittenBy i s u → WrittenBy i s (u.setR w)
  | setT {u : State} (t : Trit) : writesT i = true → WrittenBy i s u → WrittenBy i s (u.setT t)
  | setZ {u : State} (v : BinWord) : writesZ i = true → WrittenBy i s u → WrittenBy i s (u.setZ v)
  | setZF {u : State} (f : Bool) : writesZF i = true → WrittenBy i s u → WrittenBy i s (u.setZF f)

/-- The frame of the writes: registers outside the "writes" column, the status registers and the hidden state stay. -/
theorem WrittenBy.frame {i : Instr} {s u : State} (h : WrittenBy i s u) :
    (writesY i = false → u.y = s.y) ∧ (writesR i = false → u.r = s.r) ∧ (writesT i = false → u.t = s.t)
      ∧ (writesZ i = false → u.z = s.z) ∧ (writesZF i = false → u.zf = s.zf)
      ∧ u.errval = s.errval ∧ u.fatal = s.fatal ∧ u.busy = s.busy ∧ u.captured = s.captured ∧ u.done = s.done
      ∧ u.remaining = s.remaining ∧ u.cfg = s.cfg ∧ u.script = s.script := by
  induction h with
  | none => simp
  | setY w hw _ ih => simpa [hw] using ih.2
  | setR w hw _ ih => simpa [hw] using ih
  | setT t hw _ ih => simpa [hw] using ih
  | setZ v hw _ ih => simpa [hw] using ih
  | setZF f hw _ ih => simpa [hw] using ih

/-- The commands on a sub-range, which alone raise RANGE_INVALID and VALUE_DOES_NOT_FIT (60_exceptions.md R160). -/
def IsSubrange (i : Instr) : Prop := (∃ start stop w, i = .rdrange start stop w) ∨ ∃ start stop, i = .wrrange start stop

/-- How the operation of `i` ends on legal operands: with its registers written, or with one of the conditions that R160
lets `i` raise. -/
inductive OperationEnd (i : Instr) (s : State) : Answer → Prop
  | success {u : State} : WrittenBy i s u → OperationEnd i s (succeed u)
  | invalidDigit : i = .tfromint → OperationEnd i s (raise .invalidDigit (s.setErrval (sext s.cfg.b s.operandX)))
  | rangeInvalid : IsSubrange i → OperationEnd i s (raise .rangeInvalid s)
  | valueDoesNotFit : IsSubrange i → OperationEnd i s (raise .valueDoesNotFit s)
  | divByZero : i = .divrem → OperationEnd i s (raise .divByZero s.setFatal)

/-- A sub-range command checks its range before anything else of its operation. -/
theorem OperationEnd.withRange {i : Instr} {s : State} {start stop : Nat} {k : Answer} (hi : IsSubrange i)
    (h : OperationEnd i s k) : OperationEnd i s (withRange start stop s k) := by
  obtain ⟨-, hk⟩ | ⟨-, hk⟩ := withRange_cases start stop s k
  · rw [hk]; exact h
  · rw [hk]; exact .rangeInvalid hi

theorem execTfromint_ends (s : State) : OperationEnd .tfromint s (execTfromint s) := by
  unfold execTfromint
  split
  · exact .success (.setY _ rfl .none)
  · exact .invalidDigit rfl

theorem execRdrange_ends (start stop : Nat) (w : WidthSel) (s : State) :
    AfterReads s s.captured.a (OperationEnd (.rdrange start stop w) s) (execRdrange start stop w s) := by
  have hi : IsSubrange (.rdrange start stop w) := .inl ⟨start, stop, w, rfl⟩
  refine .lastWord fun a => .withRange hi ?_
  split
  · exact .success (.setZ _ rfl .none)
  · exact .valueDoesNotFit hi

theorem execWrrange_ends (start stop : Nat) (s : State) :
    AfterReads s s.captured.a (OperationEnd (.wrrange start stop) s) (execWrrange start stop s) := by
  have hi : IsSubrange (.wrrange start stop) := .inr ⟨start, stop, rfl⟩
  refine .lastWord fun a => .withRange hi ?_
  split
  · exact .success (.setY _ rfl .none)
  · exact .valueDoesNotFit hi

theorem execDivrem_ends (s : State) :
    AfterReads s (s.captured.a ++ s.captured.b) (OperationEnd .divrem s) (execDivrem s) := by
  refine .withWord fun a => .lastWord fun b => ?_
  split
  · exact .divByZero rfl
  · exact .success (.setR _ rfl (.setY _ rfl .none))

/-- Every command: the codes of R71 are checked, then the operation ends as R72 and R160 let it. -/
theorem exec_ends (i : Instr) (s : State) :
    AfterReads s (readCodes i s.captured) (OperationEnd i s) (exec i s) := by
  cases i with
  | nop => exact .nil (.success .none)
  | tadd =>
    exact .withTrit fun a => .withTrit fun b => .withTrit fun c =>
      .nil (.success (.setT _ rfl (.setY _ rfl .none)))
  | tneg => exact .withTrit fun a => .nil (.success (.setY _ rfl .none))
  | tmul => exact .withTrit fun a => .withTrit fun b => .nil (.success (.setY _ rfl .none))
  | tfromint => exact .nil (execTfromint_ends s)
  | zero => exact .nil (.success (.setY _ rfl .none))
  | fromdigit => exact .withTrit fun a => .nil (.success (.setY _ rfl .none))
  | frombin => exact .nil (.success (.setY _ rfl .none))
  | tobin => exact .lastWord fun a => .success (.setZ _ rfl .none)
  | sign => exact .lastWord fun a => .success (.setT _ rfl .none)
  | iszero => exact .lastWord fun a => .success (.setZF _ rfl .none)
  | cmp => exact .withWord fun a => .lastWord fun b => .success (.setT _ rfl .none)
  | rdrange start stop w => exact execRdrange_ends start stop w s
  | wrrange start stop => exact execWrrange_ends start stop s
  | addc =>
    rw [readCodes, List.append_assoc]
    exact .withWord fun a => .withWord fun b => .withTrit fun c =>
      .nil (.success (.setT _ rfl (.setY _ rfl .none)))
  | add => exact .withWord fun a => .lastWord fun b => .success (.setY _ rfl .none)
  | sub => exact .withWord fun a => .lastWord fun b => .success (.setY _ rfl .none)
  | neg => exact .lastWord fun a => .success (.setY _ rfl .none)
  | abs => exact .lastWord fun a => .success (.setY _ rfl .none)
  | shl amount => exact .lastWord fun a => .success (.setY _ rfl .none)
  | mul => exact .withWord fun a => .lastWord fun b => .success (.setY _ rfl .none)
  | divrem => exact execDivrem_ends s

theorem exec_of_illegal_code {i : Instr} {s : State} (h : 0b10#2 ∈ readCodes i s.captured) :
    exec i s = raise .illegalTritCode s :=
  (exec_ends i s).1 h

theorem exec_of_legal_codes {i : Instr} {s : State} (h : 0b10#2 ∉ readCodes i s.captured) :
    OperationEnd i s (exec i s) :=
  (exec_ends i s).2 h

/-- No operation raises ILLEGAL_TRIT_CODE of its own. -/
theorem OperationEnd.status_ne_illegalTritCode {i : Instr} {s t : State} {a : Answer} (h : OperationEnd i s a)
    (ht : a = .next t) : t.status ≠ 6#4 := by
  cases h <;> cases ht <;> simp [statusBits]

/-- Settles O26: the check of the codes comes first, and no operation raises its condition again. -/
theorem illegalTritCodeIsRefused : Obligations.IllegalTritCodeIsRefused := fun _ _ =>
  ⟨exec_of_illegal_code, fun hlegal _ ht => (exec_of_legal_codes hlegal).status_ne_illegalTritCode ht⟩

/-- Settles O24: a raised condition writes STATUS and the one register R160 names for it, a success what `WrittenBy.frame`
allows. -/
theorem commandsWriteOnlyTheirRegisters : Obligations.CommandsWriteOnlyTheirRegisters := by
  intro i s t ht
  by_cases hcodes : 0b10#2 ∈ readCodes i s.captured
  · cases (exec_of_illegal_code hcodes).symm.trans ht
    simp
  · have hend := exec_of_legal_codes hcodes
    generalize exec i s = a at ht hend
    cases hend with
    | success hu => cases ht; simpa [statusBits] using hu.frame
    | invalidDigit hi => cases ht; simp [hi, statusBits]
    | rangeInvalid => cases ht; simp
    | valueDoesNotFit => cases ht; simp
    | divByZero hi => cases ht; simp [hi, statusBits]

/-! ## NOP (R74) -/

/-- Among the words with OPC = 0 only the all-zero word is legal: NOP uses no field. -/
theorem illegalWord_of_opcode_zero (cap : Bool) {w : BitVec 32} (hopc : w.toNat % 2 ^ 5 = 0) (hw : w ≠ 0#32) :
    IllegalWord cap w := by
  have hpos : w.toNat ≠ 0 := fun h => hw (BitVec.eq_of_toNat_eq h)
  unfold IllegalWord
  omega

/-- Settles O28: NOP is the successful end with nothing written, and the all-zero word its only one. -/
theorem nopOnlyClearsStatus : Obligations.NopOnlyClearsStatus := by
  refine ⟨fun s => succeed_eq s, fun cap w hopc => ⟨?zero, fun hw => ?other⟩⟩
  case zero =>
    rintro rfl
    cases cap <;> decide
  case other => exact (illegalWordsAreThoseOfR62 cap w).2 (illegalWord_of_opcode_zero cap hopc hw)

end Sys2Proof.Machine
end

section
/-! PROOFS. The commands on trit 0 (41_trit.md R85 to R88, 42_convert_order.md R98): what each operation gives once the trits it
reads are known. Nothing is asked of the other codes of a port. -/

namespace Sys2Proof.Machine

/-! ## Reading trit 0, and how these commands end -/

/-- A command that reads trit 0 of a port goes on with it, whatever codes follow (R71). -/
theorem withTrit_trit0 {p : Bus} {t : Trit} (h : p.head? = some (enc t)) (s : State) (k : Trit → Answer) :
    withTrit (trit0 p) s k = k t := by
  have ht : trit0 p = enc t := by simp [trit0, List.headD_eq_head?_getD, h]
  rw [ht, withTrit_enc]

/-- The end these commands share: digit_N(u) in Y, and STATUS = OK (R11, R72). -/
theorem succeed_setY_digitWord (s : State) (u : Trit) :
    succeed (s.setY (digitWord s.cfg.n u))
      = .next { s with y := u :: List.replicate (s.cfg.n - 1) .zero, status := 0#4 } := rfl

/-! ## TADD, TNEG, TMUL and FROMDIGIT on legal trits -/

theorem exec_tadd {s : State} {a b c : Trit} (ha : s.HasA0 a) (hb : s.HasB0 b) (hc : s.HasCin c) :
    exec .tadd s
      = succeed ((s.setY (digitWord s.cfg.n (tritFullAdd a b c).1)).setT (tritFullAdd a b c).2) := by
  rw [exec, execTadd, withTrit_trit0 ha, withTrit_trit0 hb, hc, withTrit_enc]

theorem exec_tneg {s : State} {a : Trit} (ha : s.HasA0 a) :
    exec .tneg s = succeed (s.setY (digitWord s.cfg.n (tritNeg a))) := by
  rw [exec, execTneg, withTrit_trit0 ha]

theorem exec_tmul {s : State} {a b : Trit} (ha : s.HasA0 a) (hb : s.HasB0 b) :
    exec .tmul s = succeed (s.setY (digitWord s.cfg.n (tritMul a b))) := by
  rw [exec, execTmul, withTrit_trit0 ha, withTrit_trit0 hb]

theorem exec_fromdigit {s : State} {a : Trit} (ha : s.HasA0 a) :
    exec .fromdigit s = succeed (s.setY (digitWord s.cfg.n a)) := by
  rw [exec, execFromdigit, withTrit_trit0 ha]

/-- Settles O29: the trits TADD writes are those of `tritFullAdd`, which meets the contract of R81. -/
theorem taddAddsThreeTrits : Obligations.TaddAddsThreeTrits := by
  refine ⟨by decide, fun s a b c ha hb hc => ?_⟩
  exact ⟨(tritFullAdd a b c).1, (tritFullAdd a b c).2, exec_tadd ha hb hc, tritFullAdd_contract a b c⟩

/-- Settles O30: each command ends with the digit of its trit function, whose value R82 and R83 give. -/
theorem tritCommandsWriteOneDigit : Obligations.TritCommandsWriteOneDigit := by
  refine ⟨by decide, by decide, by decide, fun s a ha => ?tneg, fun s a b ha hb => ?tmul, fun s a ha => ?fromdigit⟩
  case tneg => exact ⟨tritNeg a, (exec_tneg ha).trans (succeed_setY_digitWord s _), tritNeg_toInt a⟩
  case tmul => exact ⟨tritMul a b, (exec_tmul ha hb).trans (succeed_setY_digitWord s _), tritMul_toInt a b⟩
  case fromdigit => exact (exec_fromdigit ha).trans (succeed_setY_digitWord s a)

/-! ## TFROMINT -/

/-- R84: the integer of a trit gives that trit back. -/
@[simp] theorem tritFromInt_toInt (t : Trit) : tritFromInt t.toInt = some t := by cases t <;> rfl

/-- R84: every other integer fails. -/
theorem tritFromInt_eq_none {v : Int} (hneg : v ≠ -1) (hzero : v ≠ 0) (hpos : v ≠ 1) : tritFromInt v = none := by
  simp [tritFromInt, hneg, hzero, hpos]

/-- Encoding the value of a binary word at its own width gives its bits back (R14). -/
@[simp] theorem sext_sval (x : BinWord) : sext x.width (sval x) = x := by
  simp [sext, sval]

theorem exec_tfromint_of_digit {s : State} {u : Trit} (h : s.operandX = u.toInt) :
    exec .tfromint s = succeed (s.setY (digitWord s.cfg.n u)) := by
  simp [exec, execTfromint, h]

theorem exec_tfromint_of_invalid {s : State} (h : tritFromInt s.operandX = none) :
    exec .tfromint s = raise .invalidDigit (s.setErrval (sext s.cfg.b s.operandX)) := by
  simp [exec, execTfromint, h]

/-- Settles O31: X is the integer of a trit, or `tritFromInt` fails on it; ERRVAL then gets the captured bits themselves, as the
port has the instance's width. -/
theorem tfromintChecksTheDigit : Obligations.TfromintChecksTheDigit := by
  refine ⟨by decide, fun s => ⟨fun u hu => ?digit, fun hwidth hneg hzero hpos => ?invalid⟩⟩
  case digit => exact (exec_tfromint_of_digit hu).trans (succeed_setY_digitWord s u)
  case invalid =>
    have hbits : sext s.cfg.b s.operandX = s.captured.x := by rw [← hwidth, State.operandX, sext_sval]
    rw [exec_tfromint_of_invalid (tritFromInt_eq_none hneg hzero hpos), hbits]
    rfl

end Sys2Proof.Machine
end

section
/-! PROOFS. ZERO, TOBIN, SIGN, ISZERO and CMP (42_convert_order.md R97, R100 to R103): what each operation gives once the
words it reads are known, then what its word function computes. SIGN and CMP scan from the top trit down: the tail of a
word, which holds the higher indices, decides before its head. -/

namespace Sys2Proof.Machine

/-! ## The operations on legal words -/

theorem exec_tobin {s : State} {a : Word} (ha : s.HasA a) :
    exec .tobin s = .next { s with z := sext s.cfg.b (toNative a), status := 0#4 } := by
  rw [exec, execTobin, ha.1, withWord_encWord]
  rfl

theorem exec_sign {s : State} {a : Word} (ha : s.HasA a) :
    exec .sign s = .next { s with t := signWord a, status := 0#4 } := by
  rw [exec, execSign, ha.1, withWord_encWord]
  rfl

theorem exec_iszero {s : State} {a : Word} (ha : s.HasA a) :
    exec .iszero s = .next { s with zf := isZeroWord a, status := 0#4 } := by
  rw [exec, execIszero, ha.1, withWord_encWord]
  rfl

theorem exec_cmp {s : State} {a b : Word} (ha : s.HasA a) (hb : s.HasB b) :
    exec .cmp s = .next { s with t := compareWord a b, status := 0#4 } := by
  rw [exec, execCmp, ha.1, withWord_encWord, hb.1, withWord_encWord]
  rfl

/-! ## ZERO (R97) -/

theorem exec_zero (s : State) : exec .zero s = succeed (s.setY (zeroWord s.cfg.n)) := rfl

/-- Settles O32: ZERO reads nothing, and succeeds with the all-Zero word written to Y. -/
theorem zeroClearsY : Obligations.ZeroClearsY :=
  ⟨by decide, fun s => (exec_zero s).trans (succeed_eq _)⟩

/-! ## TOBIN (R100): the value of a word, and that it fits -/

/-- The Horner sum of R96 is the value of R12. -/
theorem toNative_eq_val (w : Word) : toNative w = val w := by
  induction w with
  | nil => rfl
  | cons t w ih =>
    have horner : toNative (t :: w) = toNative w * 3 + t.toInt := rfl
    rw [horner, ih, val_cons]
    ring

/-- M of one more trit (R12): the new trit at its largest above a word at its largest. -/
theorem maxValue_succ (n : Nat) : maxValue (n + 1) = 3 * maxValue n + 1 := by
  have hodd : 3 ^ n % 2 = 1 := Nat.odd_iff.1 (Odd.pow (by decide))
  simp only [maxValue, pow_succ]
  omega

/-- A word of N trits has its value in [-M, M] (10_state.md R34). -/
theorem natAbs_val_le_maxValue (w : Word) : (val w).natAbs ≤ maxValue w.length := by
  induction w with
  | nil => simp [val_nil]
  | cons t w ih =>
    have ht := toInt_bounds t
    rw [val_cons, List.length_cons, maxValue_succ]
    omega

/-- A legal block has at least one trit, and so at least two bits on its binary port (R8). -/
theorem two_le_b_of_legal {c : Config} (hc : c.Legal) : 2 ≤ c.b := by
  obtain ⟨hn, -, -, hfit⟩ := hc
  obtain ⟨n, hsucc⟩ := Nat.exists_eq_add_of_le' hn
  rw [hsucc, maxValue_succ] at hfit
  by_contra hb
  rw [show c.b - 1 = 0 by omega] at hfit
  omega

/-- The binary port of a legal block holds every value in [-M, M] (R8, R14). -/
theorem sval_sext_of_legal {c : Config} (hc : c.Legal) {v : Int} (hv : v.natAbs ≤ maxValue c.n) :
    sval (sext c.b v) = v := by
  have hb := two_le_b_of_legal hc
  obtain ⟨-, -, -, hfit⟩ := hc
  have hpow : 0 < 2 ^ (c.b - 1) := Nat.two_pow_pos _
  have hmax : (maxValue c.n : Int) < 2 ^ (c.b - 1) := by exact_mod_cast (by omega : maxValue c.n < 2 ^ (c.b - 1))
  change (BitVec.ofInt c.b v).toInt = v
  exact BitVec.toInt_ofInt_eq_self (by omega) (by omega) (by omega)

/-- Settles O34: the Horner sum is the value, which a legal block has the bits for (R8). -/
theorem tobinGivesTheValue : Obligations.TobinGivesTheValue := by
  refine ⟨by decide, fun s a ha => ⟨sext s.cfg.b (val a), ?result, rfl, fun hlegal => ?fits⟩⟩
  case result => rw [exec_tobin ha, toNative_eq_val]
  case fits => exact sval_sext_of_legal hlegal (ha.2 ▸ natAbs_val_le_maxValue a)

/-! ## SIGN (R101) -/

theorem signWord_cons_of_zero {w : Word} (h : signWord w = .zero) (t : Trit) : signWord (t :: w) = t := by
  simp [signWord, h]

theorem signWord_cons_of_ne_zero {w : Word} (h : signWord w ≠ .zero) (t : Trit) : signWord (t :: w) = signWord w := by
  cases hw : signWord w <;> simp_all [signWord]

theorem isSign_zero_iff (w : Word) : IsSign w .zero ↔ ∀ u ∈ w, u = .zero := by
  simp [IsSign]

/-- Under Zeros alone the lowest trit is the sign. -/
theorem isSign_cons_of_zeros {w : Word} (h : ∀ u ∈ w, u = .zero) (t : Trit) : IsSign (t :: w) t := by
  by_cases ht : t = .zero
  · exact .inl ⟨ht, List.forall_mem_cons.2 ⟨ht, h⟩⟩
  · refine .inr ⟨ht, 0, rfl, fun j u hj hu => ?_⟩
    obtain ⟨k, rfl⟩ := Nat.exists_eq_succ_of_ne_zero hj.ne'
    exact h u (List.mem_of_getElem? hu)

/-- A sign that is not Zero stays the sign when a lower trit is added. -/
theorem IsSign.cons {w : Word} {c : Trit} (hc : c ≠ .zero) (h : IsSign w c) (t : Trit) : IsSign (t :: w) c := by
  obtain ⟨hzero, -⟩ | ⟨-, i, hi, habove⟩ := h
  · exact absurd hzero hc
  · refine .inr ⟨hc, i + 1, hi, fun j u hj hu => ?_⟩
    obtain ⟨k, rfl⟩ := Nat.exists_eq_succ_of_ne_zero (Nat.ne_zero_of_lt hj)
    exact habove k u (Nat.lt_of_succ_lt_succ hj) hu

theorem isSign_signWord (w : Word) : IsSign w (signWord w) := by
  induction w with
  | nil => exact .inl ⟨rfl, nofun⟩
  | cons t w ih =>
    by_cases hw : signWord w = .zero
    · rw [signWord_cons_of_zero hw]
      exact isSign_cons_of_zeros ((isSign_zero_iff w).1 (hw ▸ ih)) t
    · rw [signWord_cons_of_ne_zero hw]
      exact IsSign.cons hw ih t

/-- Settles O35: SIGN writes `signWord`, which finds the sign of every word. -/
theorem signIsTheTopNonZeroTrit : Obligations.SignIsTheTopNonZeroTrit :=
  ⟨by decide, fun _ a ha => ⟨signWord a, exec_sign ha, isSign_signWord a⟩⟩

/-! ## ISZERO (R102) -/

theorem isZeroWord_iff (w : Word) : isZeroWord w = true ↔ ∀ u ∈ w, u = .zero := by
  simp [isZeroWord]

/-- Settles O36: ISZERO writes `isZeroWord`, the test of every trit. -/
theorem iszeroTestsEveryTrit : Obligations.IszeroTestsEveryTrit :=
  ⟨by decide, fun _ a ha => ⟨isZeroWord a, exec_iszero ha, isZeroWord_iff a⟩⟩

/-! ## CMP (R103) -/

/-- t is the order of a and b by their most significant difference (R93): Zero if they are equal, else the order of the
trits at an index above which they agree. -/
def IsOrder (a b : Word) (t : Trit) : Prop :=
  (t = .zero ∧ a = b)
  ∨ ∃ (i : Nat) (x y : Trit), a[i]? = some x ∧ b[i]? = some y ∧ (∀ j : Nat, i < j → a[j]? = b[j]?)
    ∧ ((t = .pos ∧ y.toInt < x.toInt) ∨ (t = .neg ∧ x.toInt < y.toInt))

/-- The order Pos > Zero > Neg of two trits decides a comparison (R80, R93). -/
theorem compareTrit_cases (x y : Trit) :
    (compareTrit x y = .zero ∧ x = y)
    ∨ (compareTrit x y = .pos ∧ y.toInt < x.toInt) ∨ (compareTrit x y = .neg ∧ x.toInt < y.toInt) := by
  obtain hlt | heq | hgt := lt_trichotomy x.toInt y.toInt
  · exact .inr (.inr ⟨by simp [compareTrit, hlt, hlt.le], hlt⟩)
  · exact .inl ⟨by simp [compareTrit, heq], toInt_injective heq⟩
  · exact .inr (.inl ⟨by simp [compareTrit, hgt], hgt⟩)

theorem compareWord_cons_of_zero {a b : Word} (h : compareWord a b = .zero) (x y : Trit) :
    compareWord (x :: a) (y :: b) = compareTrit x y := by
  simp [compareWord, h]

theorem compareWord_cons_of_ne_zero {a b : Word} (h : compareWord a b ≠ .zero) (x y : Trit) :
    compareWord (x :: a) (y :: b) = compareWord a b := by
  cases hab : compareWord a b <;> simp_all [compareWord]

/-- The order of two words is Zero only when they are equal. -/
theorem IsOrder.eq_of_zero {a b : Word} (h : IsOrder a b .zero) : a = b := by
  obtain ⟨-, hab⟩ | ⟨_, _, _, -, -, -, ⟨hpos, -⟩ | ⟨hneg, -⟩⟩ := h
  · exact hab
  · cases hpos
  · cases hneg

/-- Below equal trits the lowest trits decide. -/
theorem isOrder_cons_self (w : Word) (x y : Trit) : IsOrder (x :: w) (y :: w) (compareTrit x y) := by
  obtain ⟨hzero, rfl⟩ | hdiffer := compareTrit_cases x y
  · exact .inl ⟨hzero, rfl⟩
  · refine .inr ⟨0, x, y, rfl, rfl, fun j hj => ?_, hdiffer⟩
    obtain ⟨k, rfl⟩ := Nat.exists_eq_succ_of_ne_zero hj.ne'
    rfl

/-- An order that is not Zero stays the order when lower trits are added. -/
theorem IsOrder.cons {a b : Word} {c : Trit} (hc : c ≠ .zero) (h : IsOrder a b c) (x y : Trit) :
    IsOrder (x :: a) (y :: b) c := by
  obtain ⟨hzero, -⟩ | ⟨i, u, v, hu, hv, habove, hdiffer⟩ := h
  · exact absurd hzero hc
  · refine .inr ⟨i + 1, u, v, hu, hv, fun j hj => ?_, hdiffer⟩
    obtain ⟨k, rfl⟩ := Nat.exists_eq_succ_of_ne_zero (Nat.ne_zero_of_lt hj)
    exact habove k (Nat.lt_of_succ_lt_succ hj)

theorem isOrder_compareWord {a b : Word} (h : a.length = b.length) : IsOrder a b (compareWord a b) := by
  induction a generalizing b with
  | nil =>
    obtain rfl := List.length_eq_zero_iff.1 h.symm
    exact .inl ⟨rfl, rfl⟩
  | cons x a ih =>
    cases b with
    | nil => cases h
    | cons y b =>
      have horder := ih (Nat.succ.inj h)
      by_cases hab : compareWord a b = .zero
      · obtain rfl := (hab ▸ horder : IsOrder a b .zero).eq_of_zero
        rw [compareWord_cons_of_zero hab]
        exact isOrder_cons_self a x y
      · rw [compareWord_cons_of_ne_zero hab]
        exact horder.cons hab x y

/-- Settles O37: CMP writes `compareWord`, which finds the order of two words of one width. -/
theorem cmpDecidesAtTheTopDifference : Obligations.CmpDecidesAtTheTopDifference :=
  ⟨by decide, fun _ a b ha hb => ⟨compareWord a b, exec_cmp ha hb, isOrder_compareWord (ha.2.trans hb.2.symm)⟩⟩

end Sys2Proof.Machine
end

section
/-! PROOFS. RDRANGE (43_subrange.md R110 to R113): the command word put together with shifts and ORs is the layout of R54, and
the operation on a legal word ends by the two checks of R113 in their order. -/

namespace Sys2Proof

/-! ## A command word of three fields (R54) -/

/-- Placing a field right above the bits below it is appending it to them. -/
theorem or_shiftLeft_eq_append {m n : Nat} (low : BitVec n) (high : BitVec m) :
    low.setWidth 32 ||| high.setWidth 32 <<< n = (high ++ low).setWidth 32 := by
  ext i hi
  by_cases hlow : i < n
  · simp [BitVec.getLsbD_append, hlow]
  · simp [BitVec.getLsbD_append, hlow, BitVec.getLsbD_of_ge low i (Nat.not_lt.1 hlow)]

/-- R54: the layout is the opcode, S shifted by 5, E by 13 and W by 21. -/
theorem or_shiftLeft_eq_packFields (opc : BitVec 5) (start stop : BitVec 8) (w : BitVec 2) :
    opc.setWidth 32 ||| start.setWidth 32 <<< 5 ||| stop.setWidth 32 <<< 13 ||| w.setWidth 32 <<< 21
      = packFields opc start stop w := by
  rw [or_shiftLeft_eq_append opc start, or_shiftLeft_eq_append (start ++ opc) stop,
    or_shiftLeft_eq_append (stop ++ (start ++ opc)) w]
  apply BitVec.eq_of_toNat_eq
  rw [BitVec.toNat_setWidth_of_le (by decide)]
  simp only [packFields, BitVec.toNat_append, Nat.shiftLeft_or_distrib, ← Nat.shiftLeft_add, Nat.or_assoc,
    BitVec.toNat_ofNat, Nat.zero_mod, Nat.zero_shiftLeft, Nat.zero_or]

/-- R61 and R60: RDRANGE is opcode 0x0C and uses all three fields. -/
theorem decode_packFields_rdrange (cap : Bool) (start stop : BitVec 8) (w : BitVec 2) :
    decode cap (packFields 0x0C#5 start stop w) = .ok (.rdrange start.toNat stop.toNat (widthOfField w)) := by
  obtain ⟨hopc, hstart, hstop, hwidth, hrsv⟩ := Laws.EncodedFields.pack_fields 0x0C#5 start stop w
  refine (decode_eq_ok_iff _ _ _).2 ⟨hrsv, ?row, ⟨fun _ => rfl, fun _ => rfl, fun _ => rfl⟩, fun _ => nofun⟩
  case row =>
    rw [hopc, hstart, hstop, hwidth]
    rfl

end Sys2Proof

namespace Sys2Proof.Machine

/-! ## The checks of a sub-range command -/

theorem withRange_of_valid {start stop : Nat} {s : State} (h : start ≤ stop ∧ stop < s.cfg.n) (k : Answer) :
    withRange start stop s k = k := by
  obtain ⟨-, hk⟩ | ⟨hinvalid, -⟩ := withRange_cases start stop s k
  · exact hk
  · exact absurd h hinvalid

theorem withRange_of_invalid {start stop : Nat} {s : State} (h : ¬ (start ≤ stop ∧ stop < s.cfg.n)) (k : Answer) :
    withRange start stop s k = raise .rangeInvalid s := by
  obtain ⟨hvalid, -⟩ | ⟨-, hk⟩ := withRange_cases start stop s k
  · exact absurd hvalid h
  · exact hk

/-- fits_W (R14) as the bounds it tests. -/
theorem fits_iff (w : Nat) (v : Int) : fits w v = true ↔ -(2 ^ (w - 1)) ≤ v ∧ v ≤ 2 ^ (w - 1) - 1 := by
  simp [fits]

/-! ## RDRANGE (R113) -/

/-- The Horner sum of R111 is the value of the span. -/
theorem readRange_eq_val (a : Word) (start stop : Nat) :
    readRange a start stop = val ((a.drop start).take (stop - start + 1)) :=
  toNative_eq_val _

theorem exec_rdrange {s : State} {a : Word} (ha : s.HasA a) (start stop : Nat) (w : WidthSel) :
    exec (.rdrange start stop w) s
      = withRange start stop s
          (if fits (widthBits s.cfg.b w) (readRange a start stop) then
            succeed (s.setZ (sext s.cfg.b (readRange a start stop)))
          else raise .valueDoesNotFit s) := by
  rw [exec, execRdrange, ha.1, withWord_encWord]

theorem exec_rdrange_of_invalid {s : State} {a : Word} (ha : s.HasA a) {start stop : Nat}
    (h : ¬ (start ≤ stop ∧ stop < s.cfg.n)) (w : WidthSel) :
    exec (.rdrange start stop w) s = .next { s with status := 2#4 } := by
  rw [exec_rdrange ha, withRange_of_invalid h]
  rfl

theorem exec_rdrange_of_fits {s : State} {a : Word} (ha : s.HasA a) {start stop : Nat}
    (h : start ≤ stop ∧ stop < s.cfg.n) {w : WidthSel}
    (hfits : fits (widthBits s.cfg.b w) (readRange a start stop) = true) :
    exec (.rdrange start stop w) s
      = .next { s with z := sext s.cfg.b (readRange a start stop), status := 0#4 } := by
  rw [exec_rdrange ha, withRange_of_valid h, if_pos hfits]
  rfl

theorem exec_rdrange_of_not_fits {s : State} {a : Word} (ha : s.HasA a) {start stop : Nat}
    (h : start ≤ stop ∧ stop < s.cfg.n) {w : WidthSel}
    (hfits : ¬ fits (widthBits s.cfg.b w) (readRange a start stop) = true) :
    exec (.rdrange start stop w) s = .next { s with status := 3#4 } := by
  rw [exec_rdrange ha, withRange_of_valid h, if_neg hfits]
  rfl

/-- Settles O40: the word is the layout of R54, and the three ends of RDRANGE are those of its range check and of `fits` on
the span's value. -/
theorem rdrangeReadsTheSpan : Obligations.RdrangeReadsTheSpan := by
  refine ⟨fun start stop w => ?word, fun s a start stop w ha => ⟨fun h => ?invalid, ?valid⟩⟩
  case word =>
    exact (congrArg (decode true) (or_shiftLeft_eq_packFields 0x0C#5 start stop w)).trans
      (decode_packFields_rdrange true start stop w)
  case invalid => exact exec_rdrange_of_invalid ha h w
  case valid =>
    intro hle hlt v hv wb hwb
    have hwidth : wb = widthBits s.cfg.b w := by cases w <;> exact hwb
    rw [← fits_iff, hwidth, hv, ← readRange_eq_val]
    exact ⟨exec_rdrange_of_fits ha ⟨hle, hlt⟩, exec_rdrange_of_not_fits ha ⟨hle, hlt⟩⟩

end Sys2Proof.Machine
end

section
/-! PROOFS. ADDC, ADD, SUB, NEG, ABS and SHL (44_arith.md R122 to R130): the word functions as the statements read them, then
each operation once the words it reads are known. -/

namespace Sys2Proof.Machine

/-! ## The ripple of the full add (R120) -/

/-- The words of no trit: the carry goes through. -/
theorem RippleSum.nil (c : Trit) : RippleSum 0 [] [] c [] c :=
  ⟨[c], rfl, rfl, rfl, nofun⟩

/-- A new lowest position that meets R81 puts its carry in before the carries of the positions above. -/
theorem RippleSum.cons {n : Nat} {a b sum : Word} {x y k d k' cout : Trit} (h : RippleSum n a b k' sum cout)
    (hadd : d.toInt + 3 * k'.toInt = x.toInt + y.toInt + k.toInt) :
    RippleSum (n + 1) (x :: a) (y :: b) k (d :: sum) cout := by
  obtain ⟨carries, hlength, hfirst, hlast, hpositions⟩ := h
  refine ⟨k :: carries, congrArg (· + 1) hlength, rfl, hlast, fun i hi => ?_⟩
  cases i with
  | zero => exact ⟨x, y, k, d, k', rfl, rfl, rfl, rfl, hfirst, hadd⟩
  | succ i => exact hpositions i (Nat.lt_of_succ_lt_succ hi)

theorem rippleSum_fullAddWord {a b : Word} (h : a.length = b.length) (c : Trit) :
    RippleSum a.length a b c (fullAddWord a b c).1 (fullAddWord a b c).2 := by
  induction a generalizing b c with
  | nil =>
    obtain rfl := List.length_eq_zero_iff.1 h.symm
    exact .nil c
  | cons x a ih =>
    cases b with
    | nil => cases h
    | cons y b => exact (ih (Nat.succ.inj h) (tritFullAdd x y c).2).cons (tritFullAdd_contract x y c)

/-- The full add of two words of width n: a sum of that width, rippled. -/
theorem fullAddWord_ripples {n : Nat} {a b : Word} (ha : a.length = n) (hb : b.length = n) (c : Trit) :
    (fullAddWord a b c).1.length = n ∧ RippleSum n a b c (fullAddWord a b c).1 (fullAddWord a b c).2 := by
  subst ha
  exact ⟨fullAddWord_length hb.symm c, rippleSum_fullAddWord hb.symm c⟩

/-! ## Negation, trit by trit (R125) -/

theorem map_toInt_negWord (w : Word) : (negWord w).map Trit.toInt = w.map (fun t => -t.toInt) := by
  simp [negWord]

/-- The integers of its trits determine the negation of a word. -/
theorem eq_negWord_of_map_toInt {v w : Word} (h : v.map Trit.toInt = w.map (fun t => -t.toInt)) : v = negWord w :=
  List.map_injective_iff.2 (fun _ _ => toInt_injective) (h.trans (map_toInt_negWord w).symm)

@[simp] theorem negWord_negWord (w : Word) : negWord (negWord w) = w := by
  simp [negWord, Function.comp_def]

/-! ## The magnitude (R127) -/

/-- A word has one sign: of two top non-zero trits neither can stand above the other. -/
theorem IsSign.unique {w : Word} {t u : Trit} (ht : IsSign w t) (hu : IsSign w u) : t = u := by
  obtain ⟨rfl, hzeros⟩ | ⟨hne, i, hi, habove⟩ := ht
  · obtain ⟨rfl, -⟩ | ⟨hne', j, hj, -⟩ := hu
    · rfl
    · exact absurd (hzeros u (List.mem_of_getElem? hj)) hne'
  · obtain ⟨rfl, hzeros⟩ | ⟨hne', j, hj, habove'⟩ := hu
    · exact absurd (hzeros t (List.mem_of_getElem? hi)) hne
    · obtain hlt | rfl | hgt := lt_trichotomy i j
      · exact absurd (habove j u hlt hj) hne'
      · exact Option.some.inj (hi.symm.trans hj)
      · exact absurd (habove' i t hgt hi) hne

theorem absWord_of_isSign_neg {w : Word} (h : IsSign w .neg) : absWord w = negWord w :=
  if_pos ((isSign_signWord w).unique h)

theorem absWord_of_isSign_ne_neg {w : Word} {g : Trit} (h : IsSign w g) (hg : g ≠ .neg) : absWord w = w :=
  if_neg ((isSign_signWord w).unique h ▸ hg)

/-! ## The shift (R129) -/

theorem getElem?_shiftLeft {w : Word} {i : Nat} (hi : i < w.length) (k : Nat) :
    (shiftLeft w k)[i]? = if i < k then some .zero else w[i - k]? := by
  unfold shiftLeft
  split
  case isTrue hk => simp [zeroWord, hi, hi.trans_le hk]
  case isFalse hk =>
    by_cases hik : i < k
    · simp [List.getElem?_append_left, hik]
    · rw [List.getElem?_append_right (by simpa using hik), List.getElem?_take_of_lt (by simp; omega), if_neg hik,
        List.length_replicate]

/-! ## The operations on legal words -/

/-- The end these commands share: the result in Y, and STATUS = OK (R72). -/
theorem succeed_setY (s : State) (w : Word) : succeed (s.setY w) = .next { s with y := w, status := 0#4 } := rfl

theorem exec_addc {s : State} {a b : Word} {c : Trit} (ha : s.HasA a) (hb : s.HasB b) (hc : s.HasCin c) :
    exec .addc s
      = .next { s with y := (fullAddWord a b c).1, t := (fullAddWord a b c).2, status := 0#4 } := by
  rw [exec, execAddc, ha.1, withWord_encWord, hb.1, withWord_encWord, hc, withTrit_enc]
  rfl

theorem exec_add {s : State} {a b : Word} (ha : s.HasA a) (hb : s.HasB b) :
    exec .add s = .next { s with y := (fullAddWord a b .zero).1, status := 0#4 } := by
  rw [exec, execAdd, ha.1, withWord_encWord, hb.1, withWord_encWord, succeed_setY]

theorem exec_sub {s : State} {a b : Word} (ha : s.HasA a) (hb : s.HasB b) :
    exec .sub s = .next { s with y := (fullAddWord a (negWord b) .zero).1, status := 0#4 } := by
  rw [exec, execSub, ha.1, withWord_encWord, hb.1, withWord_encWord, succeed_setY]

/-- NEG goes trit by trit, so the width of its operand does not matter. -/
theorem exec_neg {s : State} {a : Word} (ha : s.captured.a = encWord a) :
    exec .neg s = .next { s with y := negWord a, status := 0#4 } := by
  rw [exec, execNeg, ha, withWord_encWord, succeed_setY]

theorem exec_abs {s : State} {a : Word} (ha : s.HasA a) :
    exec .abs s = .next { s with y := absWord a, status := 0#4 } := by
  rw [exec, execAbs, ha.1, withWord_encWord, succeed_setY]

theorem exec_shl {s : State} {a : Word} (ha : s.HasA a) (k : Nat) :
    exec (.shl k) s = .next { s with y := shiftLeft a k, status := 0#4 } := by
  rw [exec, execShl, ha.1, withWord_encWord, succeed_setY]

/-! ## ADDC, ADD and SUB (R122 to R124) -/

/-- Settles O44: ADDC writes both results of the full add, which ripples from CIN. -/
theorem addcRipplesTheCarry : Obligations.AddcRipplesTheCarry := by
  refine ⟨by decide, fun s a b c ha hb hc => ?_⟩
  exact ⟨_, _, exec_addc ha hb hc, fullAddWord_ripples ha.2 hb.2 c⟩

/-- Settles O46: ADD writes the sum of the full add from carry Zero, and not its carry. -/
theorem addRipplesFromCarryZero : Obligations.AddRipplesFromCarryZero := by
  refine ⟨by decide, fun s a b ha hb => ?_⟩
  exact ⟨_, _, exec_add ha hb, fullAddWord_ripples ha.2 hb.2 .zero⟩

/-- Settles O47: the negation of Bop that the statement names is `negWord`, and SUB ripples A and it from carry Zero. -/
theorem subRipplesTheNegation : Obligations.SubRipplesTheNegation := by
  refine ⟨by decide, fun s a b b' ha hb hneg => ?_⟩
  obtain rfl := eq_negWord_of_map_toInt hneg
  exact ⟨_, _, exec_sub ha hb, fullAddWord_ripples ha.2 ((negWord_length b).trans hb.2) .zero⟩

/-! ## NEG and ABS (R126, R128) -/

/-- Settles O49: NEG writes `negWord`, which undoes itself on the fed-back word. -/
theorem negNegatesEveryTrit : Obligations.NegNegatesEveryTrit := by
  refine ⟨by decide, fun s a ha => ⟨negWord a, exec_neg ha.1, map_toInt_negWord a, fun u hu => ?involution⟩⟩
  case involution => rw [exec_neg hu, negWord_negWord]

/-- Settles O51: ABS writes `absWord`, which goes by the one sign that A has. -/
theorem absNegatesOnlyNegativeWords : Obligations.AbsNegatesOnlyNegativeWords := by
  refine ⟨by decide, fun s a g ha hsign => ⟨absWord a, exec_abs ha, ?negative, absWord_of_isSign_ne_neg hsign⟩⟩
  case negative =>
    rintro rfl
    rw [absWord_of_isSign_neg hsign, map_toInt_negWord]

/-! ## SHL (R130) -/

/-- R61 and R60: SHL is opcode 0x13 and uses field S alone. -/
theorem decode_packFields_shl (amount : BitVec 8) :
    decode true (packFields 0x13#5 amount 0#8 0#2) = .ok (.shl amount.toNat) := by
  obtain ⟨hopc, hstart, hstop, hwidth, hrsv⟩ := Laws.EncodedFields.pack_fields 0x13#5 amount 0#8 0#2
  refine (decode_eq_ok_iff _ _ _).2 ⟨hrsv, ?row, ⟨fun _ => rfl, absurd hstop, absurd hwidth⟩, nofun⟩
  case row =>
    rw [hopc, hstart]
    rfl

/-- The word of SHL is the layout of R54 with the fields E and W zero. -/
theorem shl_word_eq_packFields (amount : BitVec 8) :
    0x13#32 ||| amount.setWidth 32 <<< 5 = packFields 0x13#5 amount 0#8 0#2 := by
  simpa using or_shiftLeft_eq_packFields 0x13#5 amount 0#8 0#2

/-- Settles O52: the word is the layout of R54, and SHL writes `shiftLeft`, whose trits `getElem?_shiftLeft` gives. -/
theorem shlMovesTheTrits : Obligations.ShlMovesTheTrits := by
  refine ⟨fun amount => ?word, fun s a k ha => ⟨shiftLeft a k, exec_shl ha k, ?width, fun i hi => ?trits⟩⟩
  case word => rw [shl_word_eq_packFields, decode_packFields_shl]
  case width => exact (shiftLeft_length a k).trans ha.2
  case trits => exact getElem?_shiftLeft (hi.trans_eq ha.2.symm) k

end Sys2Proof.Machine
end

section
/-! PROOFS. What a captured command leaves in STATUS (60_exceptions.md R160): the illegal word (R165), each way a legal word
ends, and the zero divisor (R164). -/

namespace Sys2Proof.Machine

/-! ## Illegal words (R165) -/

theorem execCaptured_of_illegalWord {s : State} (h : IllegalWord s.cfg.arithCap s.captured.cmd) :
    execCaptured s = raise .illegalCommand s := by
  obtain ⟨e, he⟩ := (illegalWordsAreThoseOfR62 _ _).2 h
  obtain ⟨i, hi, -⟩ | ⟨-, -, hraise⟩ := execCaptured_cases s
  · cases he.symm.trans hi
  · exact hraise

/-- Settles O18: at the completion edge the illegal word raises its condition, and the edge itself keeps every register. -/
theorem illegalCommandWritesOnlyStatus : Obligations.IllegalCommandWritesOnlyStatus := by
  intro s hrst hbusy hremaining hillegal
  refine ⟨completionEdge (s.setStatus .illegalCommand), ?step, rfl, rfl, rfl, rfl, rfl⟩
  case step =>
    rw [step_of_completion hrst hbusy hremaining, execCaptured_of_illegalWord hillegal, raise_eq, completeWith]

/-! ## The codes of the legal words (R160) -/

/-- The rows of R160 but for ILLEGAL_COMMAND: a code 10 that is read gives code 6, and else `OperationEnd` says which
conditions the operation may raise. -/
theorem exec_status_cases {i : Instr} {s t : State} (ht : exec i s = .next t) :
    t.status = 0#4
    ∨ (t.status = 1#4 ∧ i = .tfromint ∧ t.errval = sext s.cfg.b s.operandX)
    ∨ ((t.status = 2#4 ∨ t.status = 3#4) ∧ IsSubrange i)
    ∨ (t.status = 4#4 ∧ i = .divrem ∧ t.fatal = true)
    ∨ (t.status = 6#4 ∧ 0b10#2 ∈ readCodes i s.captured) := by
  by_cases hcodes : 0b10#2 ∈ readCodes i s.captured
  · cases (exec_of_illegal_code hcodes).symm.trans ht
    exact .inr (.inr (.inr (.inr ⟨rfl, hcodes⟩)))
  · have hend := exec_of_legal_codes hcodes
    generalize exec i s = a at ht hend
    cases hend with
    | success => cases ht; exact .inl rfl
    | invalidDigit hi => cases ht; exact .inr (.inl ⟨rfl, hi, rfl⟩)
    | rangeInvalid hi => cases ht; exact .inr (.inr (.inl ⟨.inl rfl, hi⟩))
    | valueDoesNotFit hi => cases ht; exact .inr (.inr (.inl ⟨.inr rfl, hi⟩))
    | divByZero hi => cases ht; exact .inr (.inr (.inr (.inl ⟨rfl, hi, rfl⟩)))

/-- What a condition writes besides STATUS (R160): no destination, ERRVAL only with INVALID_DIGIT, FATAL only with
DIV_BY_ZERO. -/
theorem exec_condition_frame {i : Instr} {s t : State} (ht : exec i s = .next t) :
    (t.status ≠ 0#4 → t.y = s.y ∧ t.r = s.r ∧ t.t = s.t ∧ t.z = s.z ∧ t.zf = s.zf)
    ∧ (t.status ≠ 1#4 → t.errval = s.errval) ∧ (t.status ≠ 4#4 → t.fatal = s.fatal) := by
  obtain ⟨hy, hr, ht, hz, hzf, herrval, hfatal, -⟩ := commandsWriteOnlyTheirRegisters i s t ht
  exact ⟨fun h => ⟨hy (.inr h), hr (.inr h), ht (.inr h), hz (.inr h), hzf (.inr h)⟩,
    fun h => herrval (.inr h), fun h => hfatal (.inr h)⟩

/-- Settles O25: a legal word ends as `exec_status_cases` and `exec_condition_frame` say, an illegal one with code 5 alone. -/
theorem statusCodesAreThoseOfR160 : Obligations.StatusCodesAreThoseOfR160 := by
  intro s t ht
  obtain ⟨i, hi, hexec⟩ | ⟨e, he, hraise⟩ := execCaptured_cases s
  · rw [hexec] at ht
    exact ⟨.inr ⟨i, hi, exec_status_cases ht⟩, exec_condition_frame ht⟩
  · cases hraise.symm.trans ht
    refine ⟨.inl ⟨rfl, (illegalWordsAreThoseOfR62 _ _).1 ⟨e, he⟩⟩, ?frame⟩
    case frame => simp

/-! ## The zero divisor (R164) -/

theorem exec_divrem_of_zero {s : State} {a b : Word} (ha : s.HasA a) (hb : s.HasB b) (hzero : ∀ t ∈ b, t = .zero) :
    exec .divrem s = raise .divByZero s.setFatal := by
  rw [exec, execDivrem, ha.1, withWord_encWord, hb.1, withWord_encWord, if_pos ((isZeroWord_iff b).2 hzero)]

/-- Settles O55: DIVREM raises DIV_BY_ZERO with FATAL set, and a run looks at FATAL before anything else. -/
theorem zeroDivisorIsFatal : Obligations.ZeroDivisorIsFatal := by
  intro s a b ha hb hzero
  exact ⟨_, exec_divrem_of_zero ha hb hzero, rfl, fun cmds k p => verdictFrom_of_fatal rfl⟩

end Sys2Proof.Machine
end

section
/-! PROOFS. The fatal state (60_exceptions.md R170): no edge but a reset edge changes it; and a fault of a run stays its verdict,
because the edges before the fault do not look at what the host drives after them. -/

namespace Sys2Proof.Machine

/-! ## The edges of the fatal state -/

theorem State.cmdReady_of_fatal {s : State} (hfatal : s.fatal = true) : s.cmdReady = false := by
  simp [State.cmdReady, hfatal]

/-- While FATAL = 1 a block with nothing in flight accepts nothing and holds its registers (R170). -/
theorem step_of_fatal {s : State} (hfatal : s.fatal = true) (hbusy : s.busy = false) (hrst : s.drive.rst = false) :
    step s = .next (idleEdge s) := by
  have haccepts : s.accepts = false := by simp [State.accepts, State.cmdReady_of_fatal hfatal]
  simp [step, clockEdge, hrst, hbusy, haccepts]

/-- No reset for k + 1 edges: none at the coming edge, and none at the k edges after it. Past the end of its list the host
asserts none. -/
theorem State.noReset_of_take_succ {s : State} {k : Nat} (h : ∀ p ∈ s.script.take (k + 1), p.rst = false) :
    s.drive.rst = false ∧ ∀ p ∈ s.script.tail.take k, p.rst = false := by
  cases hs : s.script with
  | nil => simp [State.drive, hs, Drive.idle]
  | cons d ds => simpa [State.drive, hs] using h

/-- The fatal state as an invariant of the edges without reset. -/
theorem run_of_fatal (k : Nat) {s : State} (hfatal : s.fatal = true) (hbusy : s.busy = false)
    (hrst : ∀ p ∈ s.script.take k, p.rst = false) :
    ∃ t, Host.Core.run Sys2Proof.core k s = .next t ∧ t.fatal = true ∧ t.busy = false
      ∧ t.observation = s.observation := by
  induction k generalizing s with
  | zero => exact ⟨s, run_zero s, hfatal, hbusy, rfl⟩
  | succ k ih =>
    obtain ⟨hnow, hlater⟩ := State.noReset_of_take_succ hrst
    rw [run_succ (step_of_fatal hfatal hbusy hnow)]
    exact ih (s := idleEdge s) hfatal hbusy hlater

/-! ## Every edge has a next state -/

/-- R70: neither the check of the read codes nor an end of the operation is anything but a next state. -/
theorem exists_exec_eq_next (i : Instr) (s : State) : ∃ t, exec i s = .next t := by
  by_cases hcodes : 0b10#2 ∈ readCodes i s.captured
  · exact ⟨_, exec_of_illegal_code hcodes⟩
  · have hend := exec_of_legal_codes hcodes
    generalize exec i s = a at hend
    cases hend <;> exact ⟨_, rfl⟩

theorem exists_execCaptured_eq_next (s : State) : ∃ t, execCaptured s = .next t := by
  obtain ⟨i, -, hexec⟩ | ⟨-, -, hraise⟩ := execCaptured_cases s
  · exact hexec ▸ exists_exec_eq_next i s
  · exact ⟨_, hraise⟩

theorem exists_step_eq_next (s : State) : ∃ t, step s = .next t := by
  obtain ⟨-, hs⟩ | ⟨-, -, -, hs⟩ | ⟨-, -, -, hs⟩ | ⟨-, -, -, hs⟩ | ⟨-, -, -, hs⟩ := step_cases s
  · exact ⟨_, hs⟩
  · obtain ⟨u, hu⟩ := exists_execCaptured_eq_next s
    exact ⟨completionEdge u, by rw [hs, hu, completeWith]⟩
  · exact ⟨_, hs⟩
  · exact ⟨_, hs⟩
  · exact ⟨_, hs⟩

/-! ## An edge looks at one move of the host

Log entry 1: the host's coming moves are a list of the state. A command neither reads nor changes the list, and an edge
reads its head alone, so the rest of the list can be exchanged before the edge or after it. -/

/-- The state with other moves of the host to come. -/
def State.withScript (s : State) (script : List Drive) : State := { s with script := script }

@[simp] theorem State.withScript_cfg (s : State) (script : List Drive) : (s.withScript script).cfg = s.cfg := rfl

@[simp] theorem State.withScript_captured (s : State) (script : List Drive) :
    (s.withScript script).captured = s.captured := rfl

@[simp] theorem State.withScript_operandX (s : State) (script : List Drive) :
    (s.withScript script).operandX = s.operandX := rfl

/-- The same exchange in an answer. -/
def answerWithScript (script : List Drive) : Answer → Answer
  | .next t => .next (t.withScript script)
  | .fault f => .fault f
  | .refused r => .refused r

@[simp] theorem answerWithScript_next (script : List Drive) (t : State) :
    answerWithScript script (.next t) = .next (t.withScript script) := rfl

theorem withTrit_withScript {c : Code} {s : State} {script : List Drive} {k k' : Trit → Answer}
    (h : ∀ t, k' t = answerWithScript script (k t)) :
    withTrit c (s.withScript script) k' = answerWithScript script (withTrit c s k) := by
  unfold withTrit
  split
  · exact h _
  · rfl

theorem withWord_withScript {p : Bus} {s : State} {script : List Drive} {k k' : Word → Answer}
    (h : ∀ w, k' w = answerWithScript script (k w)) :
    withWord p (s.withScript script) k' = answerWithScript script (withWord p s k) := by
  unfold withWord
  split
  · exact h _
  · rfl

theorem withRange_withScript {start stop : Nat} {s : State} {script : List Drive} {k k' : Answer}
    (h : k' = answerWithScript script k) :
    withRange start stop (s.withScript script) k' = answerWithScript script (withRange start stop s k) := by
  unfold withRange
  rw [apply_ite (answerWithScript script), ← h]
  rfl

theorem execTfromint_withScript (s : State) (script : List Drive) :
    execTfromint (s.withScript script) = answerWithScript script (execTfromint s) := by
  unfold execTfromint
  rw [State.withScript_operandX]
  cases tritFromInt s.operandX <;> rfl

theorem execRdrange_withScript (start stop : Nat) (w : WidthSel) (s : State) (script : List Drive) :
    execRdrange start stop w (s.withScript script) = answerWithScript script (execRdrange start stop w s) := by
  refine withWord_withScript fun a => withRange_withScript ?_
  rw [apply_ite (answerWithScript script)]
  rfl

theorem execWrrange_withScript (start stop : Nat) (s : State) (script : List Drive) :
    execWrrange start stop (s.withScript script) = answerWithScript script (execWrrange start stop s) := by
  refine withWord_withScript fun a => withRange_withScript ?_
  rw [State.withScript_operandX]
  cases writeRange a s.operandX start stop <;> rfl

theorem execDivrem_withScript (s : State) (script : List Drive) :
    execDivrem (s.withScript script) = answerWithScript script (execDivrem s) := by
  refine withWord_withScript fun a => withWord_withScript fun b => ?_
  rw [apply_ite (answerWithScript script)]
  rfl

/-- No command reads or changes what the host is to drive. -/
theorem exec_withScript (i : Instr) (s : State) (script : List Drive) :
    exec i (s.withScript script) = answerWithScript script (exec i s) := by
  cases i with
  | nop => rfl
  | tadd => exact withTrit_withScript fun a => withTrit_withScript fun b => withTrit_withScript fun c => rfl
  | tneg => exact withTrit_withScript fun a => rfl
  | tmul => exact withTrit_withScript fun a => withTrit_withScript fun b => rfl
  | tfromint => exact execTfromint_withScript s script
  | zero => rfl
  | fromdigit => exact withTrit_withScript fun a => rfl
  | frombin => rfl
  | tobin => exact withWord_withScript fun a => rfl
  | sign => exact withWord_withScript fun a => rfl
  | iszero => exact withWord_withScript fun a => rfl
  | cmp => exact withWord_withScript fun a => withWord_withScript fun b => rfl
  | rdrange start stop w => exact execRdrange_withScript start stop w s script
  | wrrange start stop => exact execWrrange_withScript start stop s script
  | addc => exact withWord_withScript fun a => withWord_withScript fun b => withTrit_withScript fun c => rfl
  | add => exact withWord_withScript fun a => withWord_withScript fun b => rfl
  | sub => exact withWord_withScript fun a => withWord_withScript fun b => rfl
  | neg => exact withWord_withScript fun a => rfl
  | abs => exact withWord_withScript fun a => rfl
  | shl amount => exact withWord_withScript fun a => rfl
  | mul => exact withWord_withScript fun a => withWord_withScript fun b => rfl
  | divrem => exact execDivrem_withScript s script

theorem execCaptured_withScript (s : State) (script : List Drive) :
    execCaptured (s.withScript script) = answerWithScript script (execCaptured s) := by
  rw [execCaptured, execCaptured, State.withScript_cfg, State.withScript_captured]
  cases decode s.cfg.arithCap s.captured.cmd with
  | ok i => exact exec_withScript i s script
  | error e => rfl

theorem completeWith_withScript (script : List Drive) (a : Answer) :
    completeWith (answerWithScript script a) = answerWithScript script.tail (completeWith a) := by
  cases a <;> rfl

section
variable {s : State} {script : List Drive} (hdrive : (s.withScript script).drive = s.drive)
include hdrive

theorem accepts_withScript : (s.withScript script).accepts = s.accepts := by
  rw [State.accepts, State.cmdReady, hdrive]
  rfl

theorem acceptEdge_withScript : acceptEdge (s.withScript script) = (acceptEdge s).withScript script.tail := by
  rw [acceptEdge, hdrive]
  rfl

/-- An edge reads only the move that comes up at it. -/
theorem step_withScript : step (s.withScript script) = answerWithScript script.tail (step s) := by
  have haccepts := accepts_withScript hdrive
  have haccept := acceptEdge_withScript hdrive
  have hcompletion : completeWith (execCaptured (s.withScript script))
      = answerWithScript script.tail (completeWith (execCaptured s)) := by
    rw [execCaptured_withScript, completeWith_withScript]
  simp only [step, clockEdge, hdrive, haccepts, haccept, hcompletion, apply_ite (answerWithScript script.tail)]
  rfl

theorem Progress.after_withScript (p : Progress) (t : State) (rest : List Drive) :
    p.after (s.withScript script) (t.withScript rest) = p.after s t := by
  rw [Progress.after, accepts_withScript hdrive, hdrive]
  rfl

/-- A cycle that decides nothing leaves the exchange of the later moves to the next cycle. -/
theorem verdictFrom_succ_withScript {cmds : List Captured} {k : Nat} {p : Progress} {t : State} (hf : s.fatal = false)
    (he : p.ended cmds s = false) (h : step s = .next t) :
    verdictFrom cmds (k + 1) p (s.withScript script) = verdictFrom cmds k (p.after s t) (t.withScript script.tail) := by
  have hstep : step (s.withScript script) = .next (t.withScript script.tail) := by
    rw [step_withScript hdrive, h, answerWithScript_next]
  have hfatal : (s.withScript script).fatal = false := hf
  have hended : p.ended cmds (s.withScript script) = false := he
  rw [verdictFrom_succ hfatal hended hstep, Progress.after_withScript hdrive]

end

/-- Every edge takes the host's next move: it does so with the list that the state has. -/
theorem step_script {s t : State} (h : step s = .next t) : t.script = s.script.tail := by
  have hself : step s = answerWithScript s.script.tail (step s) := step_withScript (script := s.script) rfl
  rw [h, answerWithScript_next] at hself
  injection hself with hself
  exact congrArg State.script hself

/-! ## A fault of a run is a fault for good (R170, R192) -/

theorem fatal_of_verdictFrom_zero {cmds : List Captured} {p : Progress} {s : State} {f : Fault}
    (h : verdictFrom cmds 0 p s = .error f) : s.fatal = true := by
  cases hf : s.fatal with
  | true => rfl
  | false => cases he : p.ended cmds s <;> simp [verdictFrom, hf, he] at h

/-- A fault within j edges is decided by the host's first j moves: any others may come after them. -/
theorem verdictFrom_fault_lasts {cmds : List Captured} {j k : Nat} {p : Progress} {s : State} (rest : List Drive)
    (hscript : j ≤ s.script.length) (hjk : j ≤ k) (h : verdictFrom cmds j p s = .error .fatalState) :
    verdictFrom cmds k p (s.withScript (s.script.take j ++ rest)) = .error .fatalState := by
  induction j generalizing k p s with
  | zero => exact verdictFrom_of_fatal (fatal_of_verdictFrom_zero h)
  | succ j ih =>
    cases hf : s.fatal with
    | true => exact verdictFrom_of_fatal hf
    | false =>
      cases he : p.ended cmds s with
      | true => cases (verdictFrom_of_ended hf he).symm.trans h
      | false =>
        obtain ⟨k, rfl⟩ := Nat.exists_eq_add_of_le' (Nat.one_le_of_lt hjk)
        obtain ⟨d, ds, hs⟩ := List.exists_cons_of_length_pos (Nat.zero_lt_of_lt hscript)
        obtain ⟨t, ht⟩ := exists_step_eq_next s
        have htail : t.script = ds := by rw [step_script ht, hs, List.tail_cons]
        have hdrive : (s.withScript (d :: (ds.take j ++ rest))).drive = s.drive := by
          simp [State.drive, State.withScript, hs]
        rw [verdictFrom_succ hf he ht] at h
        rw [hs, List.take_succ_cons, List.cons_append, verdictFrom_succ_withScript hdrive hf he ht, List.tail_cons,
          ← htail]
        refine ih ?length (Nat.le_of_succ_le_succ hjk) h
        case length =>
          rw [htail]
          simpa [hs] using hscript

/-- Settles O13: the fatal state is an invariant of the edges without reset, and the host's moves before a fault decide it. -/
theorem fatalStateLastsUntilReset : Obligations.FatalStateLastsUntilReset := by
  refine ⟨fun k s hinv hfatal hrst => ?held, fun s t hrst h => ?reset, fun _ _ _ _ => verdictFrom_of_fatal,
    fun _ _ _ _ _ rest => verdictFrom_fault_lasts rest⟩
  case held =>
    obtain ⟨-, -, -, -, -, -, -, -, -, hstatus, hbusy, -⟩ := hinv
    obtain ⟨t, hrun, htfatal, htbusy, hobs⟩ := run_of_fatal k hfatal (hbusy hfatal) hrst
    have htstatus : t.status = 4#4 := (congrArg Observation.status hobs).trans (hstatus.1 hfatal)
    exact ⟨t, hrun, htfatal, hobs, htstatus, State.cmdReady_of_fatal htfatal, htbusy⟩
  case reset =>
    cases (step_of_rst hrst).symm.trans h
    exact resetEdge_fatal s

end Sys2Proof.Machine
end

section
/-! PROOFS. Reset and a block that is not ready (70_reset_and_hazards.md R181, R187): what a reset edge forgets, and that an edge
which accepts nothing reads `rst` alone of what the host drives. -/

namespace Sys2Proof.Machine

/-- A reset edge keeps nothing but the instance and the moves still to come (R181, R182). -/
theorem resetEdge_eq_of_cfg_of_tail {s u : State} (hcfg : s.cfg = u.cfg) (htail : s.script.tail = u.script.tail) :
    resetEdge s = resetEdge u := by
  rw [resetEdge, resetEdge, hcfg, htail]

/-- Settles O2: both blocks are at a reset edge, which no command in flight and no offer survives. -/
theorem resetErasesTheCommandInFlight : Obligations.ResetErasesTheCommandInFlight := by
  intro s u hcfg htail hs hu
  refine ⟨?same, resetEdge s, step_of_rst hs, resetEdge_done s, resetEdge_busy s⟩
  case same => rw [step_of_rst hs, step_of_rst hu, resetEdge_eq_of_cfg_of_tail hcfg htail]

theorem State.accepts_of_not_cmdReady {s : State} (h : s.cmdReady = false) : s.accepts = false := by
  simp [State.accepts, h]

theorem State.accepts_of_not_cmdValid {s : State} (h : s.drive.cmdValid = false) : s.accepts = false := by
  simp [State.accepts, h]

theorem step_of_idle {s : State} (hrst : s.drive.rst = false) (hbusy : s.busy = false) (haccepts : s.accepts = false) :
    step s = .next (idleEdge s) := by
  simp [step, clockEdge, hrst, hbusy, haccepts]

/-- Only an acceptance reads more than `rst` of the move that comes up: of two moves with the same `rst` that are both
not accepted, a block makes the same edge. -/
theorem step_withScript_of_not_accepts {s : State} {script : List Drive}
    (hrst : (s.withScript script).drive.rst = s.drive.rst) (hs : s.accepts = false)
    (hs' : (s.withScript script).accepts = false) :
    step (s.withScript script) = answerWithScript script.tail (step s) := by
  obtain ⟨hr, hstep⟩ | ⟨hr, hb, hz, hstep⟩ | ⟨hr, hb, hz, hstep⟩ | ⟨-, -, haccepts, -⟩ | ⟨hr, hb, -, hstep⟩ :=
    step_cases s
  · rw [hstep, step_of_rst (hrst.trans hr)]
    rfl
  · rw [hstep, step_of_completion (hrst.trans hr) hb hz, execCaptured_withScript, completeWith_withScript]
  · rw [hstep, step_of_waiting (hrst.trans hr) hb hz]
    rfl
  · cases hs.symm.trans haccepts
  · rw [hstep, step_of_idle (hrst.trans hr) hb hs']
    rfl

/-- Settles O10: a block that is not ready accepts neither the offer nor the idle move, so its edge would tell them
apart by `rst` alone, which is the same, and both leave the same moves to come. -/
theorem offerWhileNotReadyHasNoEffect : Obligations.OfferWhileNotReadyHasNoEffect := by
  intro s p hready hrst hvalid
  have hsame : (s.withScript (p :: s.script.tail)).drive.rst = s.drive.rst := hrst
  have hoffer : s.accepts = false := State.accepts_of_not_cmdReady hready
  have hnone : (s.withScript (p :: s.script.tail)).accepts = false := State.accepts_of_not_cmdValid hvalid
  calc step s = answerWithScript s.script.tail (step s) := step_withScript (script := s.script) rfl
    _ = step (s.withScript (p :: s.script.tail)) := (step_withScript_of_not_accepts hsame hoffer hnone).symm

end Sys2Proof.Machine
end

section
/-! PROOFS. The invariant of the state (10_state.md R20, R30 to R32): it holds of every reset state, and each of the five
edges of `step_cases` keeps it. The completion edge is the one that needs the commands: the widths of what they write, and
the codes of 60_exceptions.md R160. -/

namespace Sys2Proof.Machine

/-! ## What a captured command leaves alone -/

/-- R70, R72: a captured command, legal or not, changes neither the instance nor the host's moves. -/
theorem execCaptured_cfg_script {s u : State} (h : execCaptured s = .next u) : u.cfg = s.cfg ∧ u.script = s.script := by
  obtain ⟨i, -, hexec⟩ | ⟨e, -, hraise⟩ := execCaptured_cases s
  · obtain ⟨-, -, -, -, -, -, -, -, -, -, -, hcfg, hscript⟩ := commandsWriteOnlyTheirRegisters i s u (hexec ▸ h)
    exact ⟨hcfg, hscript⟩
  · cases hraise.symm.trans h
    exact ⟨rfl, rfl⟩

theorem step_cfg {s t : State} (h : step s = .next t) : t.cfg = s.cfg := by
  obtain ⟨-, hs⟩ | ⟨-, -, -, hs⟩ | ⟨-, -, -, hs⟩ | ⟨-, -, -, hs⟩ | ⟨-, -, -, hs⟩ := step_cases s
  · cases hs.symm.trans h; rfl
  · obtain ⟨u, hu, rfl⟩ := (completeWith_next_iff _ t).1 (hs.symm.trans h)
    exact (execCaptured_cfg_script hu).1
  · cases hs.symm.trans h; rfl
  · cases hs.symm.trans h; rfl
  · cases hs.symm.trans h; rfl

/-- Settles O5: an edge has a next state, which keeps the instance and takes the host's next move. -/
theorem everyStepAnswersNext : Obligations.EveryStepAnswersNext := by
  intro s
  obtain ⟨t, ht⟩ := exists_step_eq_next s
  exact ⟨t, ht, step_cfg ht, step_script ht⟩

/-! ## The widths of the registers (R20) -/

/-- Every register that has a width has the instance's. -/
structure State.RegistersFit (s : State) : Prop where
  y : s.y.length = s.cfg.n
  r : s.r.length = s.cfg.n
  z : s.z.width = s.cfg.b
  errval : s.errval.width = s.cfg.b

/-- The answer is a next state whose registers have their widths. -/
def AnswerFits : Answer → Prop
  | .next t => t.RegistersFit
  | _ => False

section
variable {s : State} (hs : s.RegistersFit)
include hs

theorem State.RegistersFit.setY {w : Word} (hw : w.length = s.cfg.n) : (s.setY w).RegistersFit :=
  ⟨hw, hs.r, hs.z, hs.errval⟩

theorem State.RegistersFit.setR {w : Word} (hw : w.length = s.cfg.n) : (s.setR w).RegistersFit :=
  ⟨hs.y, hw, hs.z, hs.errval⟩

theorem State.RegistersFit.setT (t : Trit) : (s.setT t).RegistersFit := ⟨hs.y, hs.r, hs.z, hs.errval⟩

theorem State.RegistersFit.setZ (v : Int) : (s.setZ (sext s.cfg.b v)).RegistersFit := ⟨hs.y, hs.r, rfl, hs.errval⟩

theorem State.RegistersFit.setZF (f : Bool) : (s.setZF f).RegistersFit := ⟨hs.y, hs.r, hs.z, hs.errval⟩

theorem State.RegistersFit.setErrval (v : Int) : (s.setErrval (sext s.cfg.b v)).RegistersFit :=
  ⟨hs.y, hs.r, hs.z, rfl⟩

theorem State.RegistersFit.setFatal : s.setFatal.RegistersFit := ⟨hs.y, hs.r, hs.z, hs.errval⟩

theorem AnswerFits.succeed : AnswerFits (succeed s) := ⟨hs.y, hs.r, hs.z, hs.errval⟩

theorem AnswerFits.raise (c : StatusCode) : AnswerFits (raise c s) := ⟨hs.y, hs.r, hs.z, hs.errval⟩

theorem AnswerFits.withTrit {c : Code} {k : Trit → Answer} (h : ∀ t, AnswerFits (k t)) : AnswerFits (withTrit c s k) := by
  obtain ⟨t, -, hk⟩ | ⟨-, hraise⟩ := withTrit_cases c s k
  · rw [hk]; exact h t
  · rw [hraise]; exact .raise hs _

/-- A word that is read is as long as its port is wide. -/
theorem AnswerFits.withWord {n : Nat} {p : Bus} {k : Word → Answer} (hp : p.length = n)
    (h : ∀ w : Word, w.length = n → AnswerFits (k w)) : AnswerFits (withWord p s k) := by
  obtain ⟨w, hw, hk⟩ | ⟨-, hraise⟩ := withWord_cases p s k
  · rw [hk]; exact h w (by rw [← hp, hw, encWord_length])
  · rw [hraise]; exact .raise hs _

theorem AnswerFits.withRange {start stop : Nat} {k : Answer} (h : start ≤ stop → stop < s.cfg.n → AnswerFits k) :
    AnswerFits (withRange start stop s k) := by
  obtain ⟨⟨hle, hlt⟩, hk⟩ | ⟨-, hraise⟩ := withRange_cases start stop s k
  · rw [hk]; exact h hle hlt
  · rw [hraise]; exact .raise hs _

end

/-! ## The widths of the words that commands write -/

/-- One round of R140's loop: the accumulator after the trit t of the multiplier at index i. -/
def mulRound (a : Word) (i : Nat) (t : Trit) (acc : Word) : Word :=
  match t with
  | .pos => (fullAddWord acc (shiftLeft a i) .zero).1
  | .neg => (fullAddWord acc (negWord (shiftLeft a i)) .zero).1
  | .zero => acc

theorem mulFrom_cons (a : Word) (i : Nat) (t : Trit) (b acc : Word) :
    mulFrom a i (t :: b) acc = mulFrom a (i + 1) b (mulRound a i t acc) := by
  cases t <;> rfl

theorem mulRound_length {a acc : Word} (h : acc.length = a.length) (i : Nat) (t : Trit) :
    (mulRound a i t acc).length = a.length := by
  have hshift := shiftLeft_length a i
  cases t with
  | pos => exact (fullAddWord_length (h.trans hshift.symm) _).trans h
  | neg => exact (fullAddWord_length (h.trans (hshift.symm.trans (negWord_length _).symm)) _).trans h
  | zero => exact h

theorem mulFrom_length {a acc : Word} (h : acc.length = a.length) (i : Nat) (b : Word) :
    (mulFrom a i b acc).length = a.length := by
  induction b generalizing i acc with
  | nil => exact h
  | cons t b ih =>
    rw [mulFrom_cons]
    exact ih (mulRound_length h i t) (i + 1)

theorem mulWord_length (a b : Word) : (mulWord a b).length = a.length :=
  mulFrom_length (zeroWord_length _) 0 b

theorem divStep_length {n : Nat} (tent : DivTentative) {d r : Word} (hd : d.length = n) (hr : r.length = n) :
    (divStep tent d r).2.length = n := by
  have hsub := (fullAddWord_length (hr.trans (hd.symm.trans (negWord_length d).symm)) .zero).trans hr
  have hadd := (fullAddWord_length (hr.trans hd.symm) .zero).trans hr
  unfold divStep
  dsimp only
  split
  · exact hsub
  · split
    · exact hadd
    · exact hr

theorem divLoop_length {n : Nat} (tent : DivTentative) {d : Word} (hd : d.length = n) (k : Nat) {r : Word}
    (hr : r.length = n) : (divLoop tent d k r).1.length = k ∧ (divLoop tent d k r).2.length = n := by
  induction k generalizing r with
  | zero => exact ⟨rfl, hr⟩
  | succ k ih =>
    obtain ⟨hq, hrem⟩ := ih (divStep_length tent ((shiftLeft_length d k).trans hd) hr)
    exact ⟨by simp [divLoop, hq], hrem⟩

/-- The most significant index is an index of the word (45_muldiv.md R143). -/
theorem lt_length_of_msbIndex {w : Word} {m : Nat} (h : msbIndex w = some m) : m < w.length := by
  induction w generalizing m with
  | nil => cases h
  | cons t w ih =>
    cases hw : msbIndex w with
    | some i =>
      obtain rfl : i + 1 = m := by simpa [msbIndex, hw] using h
      exact Nat.succ_lt_succ (ih hw)
    | none =>
      obtain ⟨-, rfl⟩ : t ≠ .zero ∧ 0 = m := by simpa [msbIndex, hw] using h
      exact Nat.succ_pos _

theorem divRem_length {n : Nat} (tent : DivTentative) {a d : Word} (ha : a.length = n) (hd : d.length = n) :
    (divRem tent a d).1.length = n ∧ (divRem tent a d).2.length = n := by
  have hm : (msbIndex (absWord d)).getD 0 ≤ n := by
    cases hmsb : msbIndex (absWord d) with
    | none => exact Nat.zero_le n
    | some m => exact (lt_length_of_msbIndex hmsb).le.trans_eq ((absWord_length d).trans hd)
  obtain ⟨hq, hr⟩ := divLoop_length tent ((absWord_length d).trans hd) (a.length - (msbIndex (absWord d)).getD 0) ha
  refine ⟨?quotient, hr⟩
  case quotient =>
    rw [ha] at hq
    unfold divRem
    split <;> simp [ha, hq, hm]

theorem writeRange_length {a w : Word} {v : Int} {start stop : Nat} (hle : start ≤ stop) (hlt : stop < a.length)
    (h : writeRange a v start stop = some w) : w.length = a.length := by
  obtain ⟨-, rfl⟩ : (balDigits v (stop - start + 1)).2 = 0
      ∧ a.take start ++ (balDigits v (stop - start + 1)).1 ++ a.drop (stop + 1) = w := by
    simpa [writeRange] using h
  simp only [List.length_append, List.length_take, List.length_drop, balDigits_length]
  omega

/-- Every command keeps the widths of the registers, on operands of the instance's width. -/
theorem exec_fits (i : Instr) {s : State} (hs : s.RegistersFit) (hn : 1 ≤ s.cfg.n) (ha : s.captured.a.length = s.cfg.n)
    (hb : s.captured.b.length = s.cfg.n) : AnswerFits (exec i s) := by
  have digit (t : Trit) : (s.setY (digitWord s.cfg.n t)).RegistersFit := hs.setY (digitWord_length hn t)
  cases i with
  | nop => exact .succeed hs
  | tadd => exact .withTrit hs fun a => .withTrit hs fun b => .withTrit hs fun c => .succeed ((digit _).setT _)
  | tneg => exact .withTrit hs fun a => .succeed (digit _)
  | tmul => exact .withTrit hs fun a => .withTrit hs fun b => .succeed (digit _)
  | tfromint =>
    rw [exec, execTfromint]
    split
    · exact .succeed (digit _)
    · exact .raise (hs.setErrval _) _
  | zero => exact .succeed (hs.setY (zeroWord_length _))
  | fromdigit => exact .withTrit hs fun a => .succeed (digit _)
  | frombin => exact .succeed (hs.setY (fromNative_length _ _))
  | tobin => exact .withWord hs ha fun a _ => .succeed (hs.setZ _)
  | sign => exact .withWord hs ha fun a _ => .succeed (hs.setT _)
  | iszero => exact .withWord hs ha fun a _ => .succeed (hs.setZF _)
  | cmp => exact .withWord hs ha fun a _ => .withWord hs hb fun b _ => .succeed (hs.setT _)
  | rdrange start stop w =>
    refine .withWord hs ha fun a _ => .withRange hs fun _ _ => ?_
    split
    · exact .succeed (hs.setZ _)
    · exact .raise hs _
  | wrrange start stop =>
    refine .withWord hs ha fun a hla => .withRange hs fun hle hlt => ?_
    split
    · next w hw => exact .succeed (hs.setY ((writeRange_length hle (hla ▸ hlt) hw).trans hla))
    · exact .raise hs _
  | addc =>
    exact .withWord hs ha fun a hla => .withWord hs hb fun b hlb => .withTrit hs fun c =>
      .succeed ((hs.setY ((fullAddWord_length (hla.trans hlb.symm) c).trans hla)).setT _)
  | add =>
    exact .withWord hs ha fun a hla => .withWord hs hb fun b hlb =>
      .succeed (hs.setY ((fullAddWord_length (hla.trans hlb.symm) _).trans hla))
  | sub =>
    exact .withWord hs ha fun a hla => .withWord hs hb fun b hlb =>
      .succeed (hs.setY ((fullAddWord_length (hla.trans (hlb.symm.trans (negWord_length b).symm)) _).trans hla))
  | neg => exact .withWord hs ha fun a hla => .succeed (hs.setY ((negWord_length a).trans hla))
  | abs => exact .withWord hs ha fun a hla => .succeed (hs.setY ((absWord_length a).trans hla))
  | shl amount => exact .withWord hs ha fun a hla => .succeed (hs.setY ((shiftLeft_length a amount).trans hla))
  | mul =>
    exact .withWord hs ha fun a hla => .withWord hs hb fun b _ => .succeed (hs.setY ((mulWord_length a b).trans hla))
  | divrem =>
    refine .withWord hs ha fun a hla => .withWord hs hb fun b hlb => ?_
    split
    · exact .raise hs.setFatal _
    · obtain ⟨hq, hr⟩ := divRem_length s.cfg.divTentative hla hlb
      exact .succeed ((hs.setY hq).setR hr)

theorem execCaptured_fits {s u : State} (hs : s.RegistersFit) (hn : 1 ≤ s.cfg.n) (ha : s.captured.a.length = s.cfg.n)
    (hb : s.captured.b.length = s.cfg.n) (h : execCaptured s = .next u) : u.RegistersFit := by
  have hfits : AnswerFits (execCaptured s) := by
    obtain ⟨i, -, hexec⟩ | ⟨e, -, hraise⟩ := execCaptured_cases s
    · rw [hexec]; exact exec_fits i hs hn ha hb
    · rw [hraise]; exact .raise hs _
  rwa [h] at hfits

/-! ## STATUS and FATAL at the completion edge (R28, R30) -/

/-- STATUS is one of the codes 0 to 6 (R28). -/
theorem execCaptured_status_le {s u : State} (h : execCaptured s = .next u) : u.status.toNat ≤ 6 := by
  obtain ⟨⟨h5, -⟩ | ⟨i, -, h0 | ⟨h1, -⟩ | ⟨h2 | h3, -⟩ | ⟨h4, -⟩ | ⟨h6, -⟩⟩, -⟩ := statusCodesAreThoseOfR160 s u h
  · simp [h5]
  · simp [h0]
  · simp [h1]
  · simp [h2]
  · simp [h3]
  · simp [h4]
  · simp [h6]

/-- DIV_BY_ZERO is raised with FATAL set, and only it sets FATAL (R160, R164). -/
theorem execCaptured_fatal_iff {s u : State} (hs : s.fatal = false) (h : execCaptured s = .next u) :
    u.fatal = true ↔ u.status = 4#4 := by
  obtain ⟨hcases, -, -, hkept⟩ := statusCodesAreThoseOfR160 s u h
  constructor
  · intro hfatal
    by_contra hstatus
    rw [hkept hstatus, hs] at hfatal
    cases hfatal
  · intro hstatus
    obtain ⟨h5, -⟩ | ⟨i, -, h0 | ⟨h1, -⟩ | ⟨h2 | h3, -⟩ | ⟨-, -, hfatal⟩ | ⟨h6, -⟩⟩ := hcases
    case inr.inr.inr.inr.inl => exact hfatal
    all_goals simp_all

/-! ## Each edge keeps the invariant -/

/-- Settles O3: the registers of R182 have the instance's widths and nothing is in flight. -/
theorem invariantHoldsAtReset : Obligations.InvariantHoldsAtReset := by
  have hreset (cfg : Config) (script : List Drive) (hlegal : cfg.Legal) : (State.resetOf cfg script).Inv := by
    refine ⟨hlegal, ?_⟩
    simp [State.resetOf, Captured.none]
  exact ⟨hreset _ _ (by decide), hreset⟩

theorem State.Inv.resetEdge {s : State} (hs : s.Inv) : (resetEdge s).Inv := by
  obtain ⟨hlegal, -⟩ := hs
  exact invariantHoldsAtReset.2 s.cfg s.script.tail hlegal

theorem State.Inv.completionEdge {s u : State} (hs : s.Inv) (hbusy : s.busy = true) (h : execCaptured s = .next u) :
    (completionEdge u).Inv := by
  obtain ⟨hlegal, hy, hr, hz, herrval, ha, hb, -, -, -, hfatal, -, -⟩ := hs
  have hcfg := (execCaptured_cfg_script h).1
  have hlive : s.fatal = false := Bool.eq_false_of_not_eq_true fun hf => by cases (hfatal hf).symm.trans hbusy
  obtain ⟨huy, hur, huz, huerrval⟩ := execCaptured_fits ⟨hy, hr, hz, herrval⟩ hlegal.1 ha hb h
  have hstatus : u.status.toNat ≤ 6 := execCaptured_status_le h
  have hiff : u.fatal = true ↔ u.status = 4#4 := execCaptured_fatal_iff hlive h
  exact ⟨hcfg ▸ hlegal, huy, hur, huz, huerrval, List.length_replicate, List.length_replicate, rfl, hstatus, hiff,
    fun _ => rfl, fun _ => rfl, fun _ => ⟨rfl, rfl⟩⟩

theorem State.Inv.waitEdge {s : State} (hs : s.Inv) (hbusy : s.busy = true) : (waitEdge s).Inv := by
  obtain ⟨hlegal, hy, hr, hz, herrval, ha, hb, hx, hstatus, hiff, hfatal, -, -⟩ := hs
  exact ⟨hlegal, hy, hr, hz, herrval, ha, hb, hx, hstatus, hiff, hfatal, nofun,
    fun hidle => absurd (hbusy.symm.trans hidle) (by decide)⟩

/-- A command is accepted only while FATAL = 0, and captured at the widths of its ports (R32, R41). -/
theorem State.Inv.acceptEdge {s : State} (hs : s.Inv) (haccepts : s.accepts = true) : (acceptEdge s).Inv := by
  obtain ⟨hlegal, hy, hr, hz, herrval, -, -, -, hstatus, hiff, -, -, -⟩ := hs
  have hready : s.cmdReady = true := by
    simp only [State.accepts, Bool.and_eq_true] at haccepts
    exact haccepts.1
  obtain ⟨-, hlive, -⟩ := s.cmdReady_iff.1 hready
  exact ⟨hlegal, hy, hr, hz, herrval, fitBus_length _ _, fitBus_length _ _, rfl, hstatus, hiff,
    fun hfatal => absurd (hlive.symm.trans hfatal) (by decide), nofun, nofun⟩

theorem State.Inv.idleEdge {s : State} (hs : s.Inv) : (idleEdge s).Inv := by
  obtain ⟨hlegal, hy, hr, hz, herrval, ha, hb, hx, hstatus, hiff, hfatal, -, hidle⟩ := hs
  exact ⟨hlegal, hy, hr, hz, herrval, ha, hb, hx, hstatus, hiff, hfatal, nofun, hidle⟩

/-- Settles O4: a step is one of the five edges, and each of them keeps the invariant. -/
theorem stepKeepsTheInvariant : Obligations.StepKeepsTheInvariant := by
  intro s t hs h
  obtain ⟨-, hstep⟩ | ⟨-, hbusy, -, hstep⟩ | ⟨-, hbusy, -, hstep⟩ | ⟨-, -, haccepts, hstep⟩ | ⟨-, -, -, hstep⟩ :=
    step_cases s
  · cases hstep.symm.trans h
    exact hs.resetEdge
  · obtain ⟨u, hu, rfl⟩ := (completeWith_next_iff _ t).1 (hstep.symm.trans h)
    exact hs.completionEdge hbusy hu
  · cases hstep.symm.trans h
    exact hs.waitEdge hbusy
  · cases hstep.symm.trans h
    exact hs.acceptEdge haccepts
  · cases hstep.symm.trans h
    exact hs.idleEdge

end Sys2Proof.Machine
end

section
/-! PROOFS. The two round trips between instructions and command words (30_encoding.md R54 to R65). Both go field by field: an
instruction's word has its fields, and a legal word's instruction takes its fields from the word, an unused one being 0. -/

namespace Sys2Proof

/-- R58: the value of field W determines the width, and the width the value. -/
@[simp] theorem widthOfField_fieldOfWidth (w : WidthSel) : widthOfField (fieldOfWidth w) = w := by cases w <;> rfl

@[simp] theorem fieldOfWidth_widthOfField (f : BitVec 2) : fieldOfWidth (widthOfField f) = f := by
  revert f; decide

/-! ## The word of an instruction -/

/-- Well-formed means that the index fields fit their places (R56, R57). -/
theorem wellFormed_iff (i : Instr) : i.WellFormed = true ↔ startOf i < 2 ^ 8 ∧ stopOf i < 2 ^ 8 := by
  cases i <;> simp [Instr.WellFormed, startOf, stopOf]

/-- The row of R61 that an instruction's opcode selects is its own. -/
theorem instrOfOpcode_opcodeOf (i : Instr) :
    instrOfOpcode (opcodeOf i).toNat (startOf i) (stopOf i) (widthOf i) = some i := by
  cases i <;> rfl

/-- R60: a field that an instruction does not use is 0 in its word. -/
theorem unused_fields_of_instr (i : Instr) :
    (startOf i ≠ 0 → usesStart i = true) ∧ (stopOf i ≠ 0 → usesStop i = true)
      ∧ (fieldOfWidth (widthOf i) ≠ 0#2 → usesWidth i = true) := by
  cases i <;> simp [startOf, stopOf, widthOf, usesStart, usesStop, usesWidth, fieldOfWidth]

/-- Settles O15: the word's fields are the instruction's, so its opcode selects the instruction and no check fires. -/
theorem decodeOfEncode : Obligations.DecodeOfEncode := by
  intro cap i hwf hcap
  obtain ⟨hstartlt, hstoplt⟩ := (wellFormed_iff i).1 hwf
  obtain ⟨hopc, hstart, hstop, hwidth, hrsv⟩ := Laws.EncodedFields.of_fields_ok i hstartlt hstoplt hwf
  refine (decode_eq_ok_iff cap _ i).2 ⟨hrsv, ?row, ?unused, fun hfalse => ?arith⟩
  case row => rw [hopc, hstart, hstop, hwidth, widthOfField_fieldOfWidth, instrOfOpcode_opcodeOf]
  case unused =>
    rw [UnusedFieldsZero, hstart, hstop, hwidth]
    exact unused_fields_of_instr i
  case arith => simpa [hfalse] using hcap

/-! ## The instruction of a word -/

/-- R61: an instruction takes the fields it uses from the word, so with its unused fields 0 it has all of them. -/
theorem fields_of_instrOfOpcode {opc start stop : Nat} {w : WidthSel} {i : Instr}
    (h : instrOfOpcode opc start stop w = some i) (hstart : start ≠ 0 → usesStart i = true)
    (hstop : stop ≠ 0 → usesStop i = true) (hwidth : fieldOfWidth w ≠ 0#2 → usesWidth i = true) :
    startOf i = start ∧ stopOf i = stop ∧ fieldOfWidth (widthOf i) = fieldOfWidth w := by
  unfold instrOfOpcode at h
  split at h <;> cases h <;> simp_all [startOf, stopOf, widthOf, usesStart, usesStop, usesWidth, fieldOfWidth]

/-- Settles O16: the instruction's opcode and fields are those of the word, whose five fields are all of its bits. -/
theorem encodeOfDecode : Obligations.EncodeOfDecode := by
  intro cap w i h
  obtain ⟨hrsv, hi, ⟨hstart, hstop, hwidth⟩, -⟩ := (decode_eq_ok_iff cap w i).1 h
  obtain ⟨hs, he, hw⟩ := fields_of_instrOfOpcode hi hstart hstop (by simpa using hwidth)
  refine ⟨?word, (wellFormed_iff i).2 ⟨hs ▸ BitVec.isLt _, he ▸ BitVec.isLt _⟩⟩
  case word =>
    have hopc : opcodeOf i = w.extractLsb' 0 5 := BitVec.eq_of_toNat_eq (opcodeOf_of_instrOfOpcode hi)
    have hs' : BitVec.ofNat 8 (startOf i) = w.extractLsb' 5 8 := by rw [hs, startField, BitVec.ofNat_toNat, BitVec.setWidth_eq]
    have he' : BitVec.ofNat 8 (stopOf i) = w.extractLsb' 13 8 := by rw [he, stopField, BitVec.ofNat_toNat, BitVec.setWidth_eq]
    have hw' : fieldOfWidth (widthOf i) = widthField w := by simpa using hw
    rw [encode, packFields, hopc, hs', he', hw', ← hrsv, fields_append]

/-- Settles O14: each word by evaluating the decoder. -/
theorem sampleWordsDecode : Obligations.SampleWordsDecode := by
  refine ⟨?nop, ?tfromint, ?frombin, ?rdrange, ?wrrange, ?shl, ?divrem⟩ <;> decide

end Sys2Proof
end

section
/-! PROOFS. A command reads its operands and the instance, and writes registers: the hidden execution state (10_state.md R31), the
ports it does not read (40_common.md R71) and the host's moves pass it by. From this follow the noninterference of unread
ports and the life of a command from its acceptance to its completion (70_reset_and_hazards.md R189, R190). -/

namespace Sys2Proof.Machine

/-! ## Exchanging what a command does not write -/

/-- The registers and the instance of s with the hidden state, the captured command and the coming moves of h. -/
def State.withHidden (s h : State) : State :=
  { s with
    busy := h.busy
    captured := h.captured
    done := h.done
    remaining := h.remaining
    script := h.script }

@[simp] theorem State.withHidden_cfg (s h : State) : (s.withHidden h).cfg = s.cfg := rfl

@[simp] theorem State.withHidden_captured (s h : State) : (s.withHidden h).captured = h.captured := rfl

/-- The same exchange in an answer. -/
def answerWithHidden (h : State) : Answer → Answer
  | .next t => .next (t.withHidden h)
  | .fault f => .fault f
  | .refused r => .refused r

@[simp] theorem answerWithHidden_next (h t : State) : answerWithHidden h (.next t) = .next (t.withHidden h) := rfl

/-- Two captures agree on everything that command `i` uses (R71): the codes it reads, X if its rule uses it, and the width
of port a, which tells the codes of a from those of b. -/
structure AgreeFor (i : Instr) (c c' : Captured) : Prop where
  codes : readCodes i c = readCodes i c'
  width : c.a.length = c'.a.length
  x : readsX i = true → c.x = c'.x

theorem AgreeFor.refl (i : Instr) (c : Captured) : AgreeFor i c c := ⟨rfl, rfl, fun _ => rfl⟩

section
variable {s h : State}

theorem withTrit_withHidden {c c' : Code} {k k' : Trit → Answer} (hc : c' = c)
    (hk : ∀ t, k' t = answerWithHidden h (k t)) :
    withTrit c' (s.withHidden h) k' = answerWithHidden h (withTrit c s k) := by
  subst hc
  obtain ⟨t, rfl, -⟩ | ⟨rfl, -⟩ := withTrit_cases c' s k
  · rw [withTrit_enc, withTrit_enc, hk]
  · rfl

theorem withWord_withHidden {p p' : Bus} {k k' : Word → Answer} (hp : p' = p)
    (hk : ∀ w, k' w = answerWithHidden h (k w)) :
    withWord p' (s.withHidden h) k' = answerWithHidden h (withWord p s k) := by
  subst hp
  unfold withWord
  split
  · exact hk _
  · rfl

/-- Two words are read as one bus after the other. -/
theorem withWords_withHidden {k k' : Word → Word → Answer}
    (hcodes : h.captured.a ++ h.captured.b = s.captured.a ++ s.captured.b)
    (hwidth : h.captured.a.length = s.captured.a.length)
    (hk : ∀ v w, k' v w = answerWithHidden h (k v w)) :
    (withWord h.captured.a (s.withHidden h) fun v => withWord h.captured.b (s.withHidden h) (k' v))
      = answerWithHidden h (withWord s.captured.a s fun v => withWord s.captured.b s (k v)) := by
  obtain ⟨ha, hb⟩ := List.append_inj hcodes hwidth
  exact withWord_withHidden ha fun v => withWord_withHidden hb (hk v)

theorem withRange_withHidden {start stop : Nat} {k k' : Answer} (hk : k' = answerWithHidden h k) :
    withRange start stop (s.withHidden h) k' = answerWithHidden h (withRange start stop s k) := by
  unfold withRange
  rw [apply_ite (answerWithHidden h), ← hk]
  rfl

theorem operandX_withHidden (hx : h.captured.x = s.captured.x) : (s.withHidden h).operandX = s.operandX := by
  rw [State.operandX, State.withHidden_captured, hx]
  rfl

theorem execTfromint_withHidden (hx : h.captured.x = s.captured.x) :
    execTfromint (s.withHidden h) = answerWithHidden h (execTfromint s) := by
  unfold execTfromint
  rw [operandX_withHidden hx]
  cases tritFromInt s.operandX <;> rfl

theorem execFrombin_withHidden (hx : h.captured.x = s.captured.x) :
    execFrombin (s.withHidden h) = answerWithHidden h (execFrombin s) := by
  unfold execFrombin
  rw [operandX_withHidden hx]
  rfl

theorem execRdrange_withHidden (start stop : Nat) (w : WidthSel) (ha : h.captured.a = s.captured.a) :
    execRdrange start stop w (s.withHidden h) = answerWithHidden h (execRdrange start stop w s) := by
  refine withWord_withHidden ha fun a => withRange_withHidden ?_
  rw [apply_ite (answerWithHidden h)]
  rfl

theorem execWrrange_withHidden (start stop : Nat) (ha : h.captured.a = s.captured.a)
    (hx : h.captured.x = s.captured.x) :
    execWrrange start stop (s.withHidden h) = answerWithHidden h (execWrrange start stop s) := by
  refine withWord_withHidden ha fun a => withRange_withHidden ?_
  rw [operandX_withHidden hx]
  cases writeRange a s.operandX start stop <;> rfl

theorem execDivrem_withHidden (hcodes : h.captured.a ++ h.captured.b = s.captured.a ++ s.captured.b)
    (hwidth : h.captured.a.length = s.captured.a.length) :
    execDivrem (s.withHidden h) = answerWithHidden h (execDivrem s) := by
  refine withWords_withHidden (h := h) hcodes hwidth fun a b => ?_
  rw [apply_ite (answerWithHidden h)]
  rfl

theorem execTadd_withHidden
    (hcodes : readCodes .tadd h.captured = readCodes .tadd s.captured) :
    execTadd (s.withHidden h) = answerWithHidden h (execTadd s) := by
  obtain ⟨ha, hb, hcin, -⟩ : trit0 h.captured.a = trit0 s.captured.a ∧ trit0 h.captured.b = trit0 s.captured.b
      ∧ h.captured.cin = s.captured.cin ∧ True := by simpa [readCodes] using hcodes
  exact withTrit_withHidden ha fun a => withTrit_withHidden hb fun b => withTrit_withHidden hcin fun c => rfl

theorem execTmul_withHidden
    (hcodes : readCodes .tmul h.captured = readCodes .tmul s.captured) :
    execTmul (s.withHidden h) = answerWithHidden h (execTmul s) := by
  obtain ⟨ha, hb⟩ : trit0 h.captured.a = trit0 s.captured.a ∧ trit0 h.captured.b = trit0 s.captured.b := by
    simpa [readCodes] using hcodes
  exact withTrit_withHidden ha fun a => withTrit_withHidden hb fun b => rfl

theorem execAddc_withHidden
    (hcodes : readCodes .addc h.captured = readCodes .addc s.captured)
    (hwidth : h.captured.a.length = s.captured.a.length) :
    execAddc (s.withHidden h) = answerWithHidden h (execAddc s) := by
  obtain ⟨hwords, hcin⟩ := List.append_inj' hcodes rfl
  exact withWords_withHidden hwords hwidth fun a b => withTrit_withHidden (List.cons.inj hcin).1 fun c => rfl

/-- What a command does depends on what it uses of the captured command, and on nothing else that it does not write. -/
theorem exec_withHidden {i : Instr} (hagree : AgreeFor i h.captured s.captured) :
    exec i (s.withHidden h) = answerWithHidden h (exec i s) := by
  obtain ⟨hcodes, hwidth, hx⟩ := hagree
  cases i with
  | nop => rfl
  | tadd => exact execTadd_withHidden hcodes
  | tneg => exact withTrit_withHidden (List.cons.inj hcodes).1 fun a => rfl
  | tmul => exact execTmul_withHidden hcodes
  | tfromint => exact execTfromint_withHidden (hx rfl)
  | zero => rfl
  | fromdigit => exact withTrit_withHidden (List.cons.inj hcodes).1 fun a => rfl
  | frombin => exact execFrombin_withHidden (hx rfl)
  | tobin => exact withWord_withHidden hcodes fun a => rfl
  | sign => exact withWord_withHidden hcodes fun a => rfl
  | iszero => exact withWord_withHidden hcodes fun a => rfl
  | cmp => exact withWords_withHidden hcodes hwidth fun a b => rfl
  | rdrange start stop w => exact execRdrange_withHidden start stop w hcodes
  | wrrange start stop => exact execWrrange_withHidden start stop hcodes (hx rfl)
  | addc => exact execAddc_withHidden hcodes hwidth
  | add => exact withWords_withHidden hcodes hwidth fun a b => rfl
  | sub => exact withWords_withHidden hcodes hwidth fun a b => rfl
  | neg => exact withWord_withHidden hcodes fun a => rfl
  | abs => exact withWord_withHidden hcodes fun a => rfl
  | shl amount => exact withWord_withHidden hcodes fun a => rfl
  | mul => exact withWords_withHidden hcodes hwidth fun a b => rfl
  | divrem => exact execDivrem_withHidden hcodes hwidth

/-- The captured command is executed alike at every edge at which it is held. -/
theorem execCaptured_withHidden (hcaptured : h.captured = s.captured) :
    execCaptured (s.withHidden h) = answerWithHidden h (execCaptured s) := by
  unfold execCaptured
  rw [State.withHidden_captured, State.withHidden_cfg, hcaptured]
  split
  · exact exec_withHidden (hcaptured ▸ .refl _ _)
  · rfl

end

/-- Settles O27: the other capture is a hidden state that agrees with the one held on what the command uses; the command
leaves the hidden state of s itself alone. -/
theorem unreadPortsHaveNoEffect : Obligations.UnreadPortsHaveNoEffect := by
  intro i s c hcodes hwidth hx
  obtain ⟨t, ht⟩ := exists_exec_eq_next i s
  obtain ⟨-, -, -, -, -, -, -, hbusy, -, hdone, hremaining, -, hscript⟩ := commandsWriteOnlyTheirRegisters i s t ht
  refine ⟨t, ht, ?_⟩
  calc exec i { s with captured := c }
      = answerWithHidden { s with captured := c } (exec i s) :=
        exec_withHidden (h := { s with captured := c }) ⟨hcodes, hwidth, hx⟩
    _ = .next { t with captured := c } := by
      rw [ht, answerWithHidden_next, State.withHidden, ← hbusy, ← hdone, ← hremaining, ← hscript]

/-! ## The edges of a command's life -/

/-- The registers after the completion edge are those that executing the captured command gives. -/
theorem step_completes {s u : State} (hrst : s.drive.rst = false) (hbusy : s.busy = true) (hz : s.remaining = 0)
    (h : execCaptured s = .next u) : step s = .next (completionEdge u) := by
  rw [step_of_completion hrst hbusy hz, h, completeWith]

/-- A placed command is at its completion edge, with no reset at it (log entry 9). -/
theorem step_withFetchWord {s u : State} {nbits w : Nat} (h : execCaptured (s.withFetchWord nbits w) = .next u) :
    step (s.withFetchWord nbits w) = .next (completionEdge u) :=
  step_completes rfl rfl rfl h

theorem execCaptured_of_decode {s : State} {i : Instr} (h : decode s.cfg.arithCap s.captured.cmd = .ok i) :
    execCaptured s = exec i s := by
  rw [execCaptured, h]

/-- Settles O6: the completion edge executes the captured command, which decodes to the instruction. -/
theorem stepRunsTheDecodedInstruction : Obligations.StepRunsTheDecodedInstruction := by
  intro s i hrst hbusy hz hdecode u hu
  exact step_completes hrst hbusy hz ((execCaptured_of_decode hdecode).trans hu)

/-- Settles O7: a placed command is at its completion edge. -/
theorem placedWordRunsAtTheNextStep : Obligations.PlacedWordRunsAtTheNextStep := by
  intro s nbits w i hdecode u hu
  have hexec : execCaptured (s.withFetchWord nbits w) = exec i (s.withFetchWord nbits w) :=
    execCaptured_of_decode hdecode
  exact ⟨completionEdge u, step_withFetchWord (hexec.trans hu), rfl, rfl, rfl, rfl⟩

theorem step_of_accepts {s : State} (h : s.accepts = true) : step s = .next (acceptEdge s) := by
  obtain ⟨hready, -⟩ : s.cmdReady = true ∧ s.drive.cmdValid = true := by simpa [State.accepts] using h
  obtain ⟨hbusy, -, hrst⟩ := s.cmdReady_iff.1 hready
  simp [step, clockEdge, hrst, hbusy, h]

/-- R41: ports of the instance's widths are captured as they stand. -/
theorem capture_eq_of_widths {c : Config} {p : Drive} (ha : p.a.length = c.n) (hb : p.b.length = c.n)
    (hx : p.x.width = c.b) : capture c p = { cmd := p.cmd, a := p.a, b := p.b, cin := p.cin, x := p.x } := by
  have hfit : fitBin c.b p.x = p.x := by
    rw [← hx, fitBin, BitVec.setWidth_eq]
  rw [capture, fitBus_eq_self ha, fitBus_eq_self hb, hfit]

/-- Settles O9: of the edges of an idle block only the acceptance edge raises BUSY, and it captures the ports. -/
theorem acceptanceCapturesThePorts : Obligations.AcceptanceCapturesThePorts := by
  intro s t hidle h
  have haccepts : s.accepts = true ↔ s.drive.cmdValid = true ∧ s.cmdReady = true := by
    simp [State.accepts, and_comm]
  obtain ⟨hrst, hs⟩ | ⟨-, hbusy, -, -⟩ | ⟨-, hbusy, -, -⟩ | ⟨hrst, -, hacc, hs⟩ | ⟨-, -, hacc, hs⟩ := step_cases s
  · cases hs.symm.trans h
    simp [hrst]
  · cases hidle.symm.trans hbusy
  · cases hidle.symm.trans hbusy
  · cases hs.symm.trans h
    obtain ⟨hvalid, hready⟩ := haccepts.1 hacc
    exact ⟨iff_of_true rfl ⟨hvalid, hready, hrst⟩,
      fun _ ha hb hx => ⟨capture_eq_of_widths ha hb hx, rfl, rfl⟩⟩
  · cases hs.symm.trans h
    have hnot : ¬ (s.drive.cmdValid = true ∧ s.cmdReady = true) := by simp [← haccepts, hacc]
    have hbusy : ¬ (idleEdge s).busy = true := by simp [hidle]
    exact ⟨iff_of_false hbusy fun ⟨hvalid, hready, _⟩ => hnot ⟨hvalid, hready⟩, fun hb => absurd hb hbusy⟩

/-! ## The run of a command in flight (R190) -/

/-- While the latency passes nothing of the command changes: BUSY and the registers stay. -/
theorem run_of_waiting {k : Nat} {s : State} (hbusy : s.busy = true) (hk : k ≤ s.remaining)
    (hrst : ∀ p ∈ s.script.take k, p.rst = false) :
    ∃ v, Host.Core.run Sys2Proof.core k s = .next v ∧ v.busy = true ∧ v.observation = s.observation
      ∧ v.fatal = s.fatal := by
  induction k generalizing s with
  | zero => exact ⟨s, run_zero s, hbusy, rfl, rfl⟩
  | succ k ih =>
    obtain ⟨hnow, hlater⟩ := State.noReset_of_take_succ hrst
    rw [run_succ (step_of_waiting hnow hbusy (Nat.ne_zero_of_lt hk))]
    exact ih (s := waitEdge s) hbusy (Nat.le_sub_one_of_lt hk) hlater

/-- A command in flight completes at the edge after its latency, with the registers that executing it now gives. -/
theorem run_completes {n : Nat} {s u : State} (hn : s.remaining = n) (hbusy : s.busy = true)
    (hrst : ∀ p ∈ s.script.take (n + 1), p.rst = false) (hu : execCaptured s = .next u) :
    ∃ t, Host.Core.run Sys2Proof.core (n + 1) s = .next t ∧ t.done = true ∧ t.busy = false
      ∧ t.observation = u.observation ∧ t.fatal = u.fatal ∧ t.cfg = s.cfg := by
  induction n generalizing s u with
  | zero =>
    obtain ⟨hnow, -⟩ := State.noReset_of_take_succ hrst
    exact ⟨completionEdge u, run_succ (step_completes hnow hbusy hn hu), rfl, rfl, rfl, rfl,
      (execCaptured_cfg_script hu).1⟩
  | succ n ih =>
    obtain ⟨hnow, hlater⟩ := State.noReset_of_take_succ hrst
    have hwait : execCaptured (waitEdge s) = .next (u.withHidden (waitEdge s)) := by
      calc execCaptured (waitEdge s) = answerWithHidden (waitEdge s) (execCaptured s) :=
            execCaptured_withHidden (s := s) (h := waitEdge s) rfl
        _ = .next (u.withHidden (waitEdge s)) := by rw [hu, answerWithHidden_next]
    rw [run_succ (step_of_waiting hnow hbusy (by omega))]
    exact ih (s := waitEdge s) (u := u.withHidden (waitEdge s)) (by simp [hn]) hbusy hlater hwait

/-- Settles O11: the run up to the completion edge, and the completion edge. -/
theorem commandInFlightCompletes : Obligations.CommandInFlightCompletes := by
  intro s u hbusy hrst hu
  refine ⟨fun k hk => run_of_waiting hbusy hk fun p hp => hrst p ?_, run_completes rfl hbusy hrst hu⟩
  exact (List.take_sublist_take_left (Nat.le_succ_of_le hk)).subset hp

/-- Settles O12: after the acceptance edge the command is in flight, with the latency still to pass. -/
theorem acceptedCommandCompletesAfterItsLatency : Obligations.AcceptedCommandCompletesAfterItsLatency := by
  intro s u haccepts hrst hu
  have hexec : execCaptured (acceptEdge s) = .next (u.withHidden (acceptEdge s)) := by
    calc execCaptured (acceptEdge s)
        = answerWithHidden (acceptEdge s) (execCaptured { s with captured := capture s.cfg s.drive }) :=
          execCaptured_withHidden (s := { s with captured := capture s.cfg s.drive }) (h := acceptEdge s) rfl
      _ = .next (u.withHidden (acceptEdge s)) := by rw [hu, answerWithHidden_next]
  rw [Nat.add_comm 1, run_succ (step_of_accepts haccepts)]
  exact run_completes (s := acceptEdge s) (u := u.withHidden (acceptEdge s)) rfl rfl hrst hexec

/-! ## Reset, the output ports, and the answer of a command -/

/-- Settles O1: the reset edge gives the reset state of R182, and `cmd_ready` waits for the release of reset. -/
theorem resetEdgeGivesTheResetState : Obligations.ResetEdgeGivesTheResetState := by
  intro s hrst
  refine ⟨?busy, resetEdge s, step_of_rst hrst, rfl, rfl, rfl, rfl, rfl, rfl, rfl, rfl, rfl, rfl, rfl, rfl, rfl,
    (resetEdge_cmdReady_iff s).2⟩
  case busy => simp [State.cmdReady, hrst]

theorem illegal_not_mem_encWord (w : Word) : 0b10#2 ∉ encWord w := by
  rw [← decBus_eq_none_iff, decBus_encWord]
  exact nofun

/-- Settles O22: the output ports carry encoded trits. -/
theorem outputsNeverCarryTheIllegalCode : Obligations.OutputsNeverCarryTheIllegalCode := fun s =>
  ⟨illegal_not_mem_encWord s.y, illegal_not_mem_encWord s.r, enc_ne_illegal s.t⟩

/-- Settles O23: the answer of a command is that of `succeed` or `raise`. -/
theorem everyCommandAnswersNext : Obligations.EveryCommandAnswersNext := exists_exec_eq_next

end Sys2Proof.Machine
end

section
/-! PROOFS. The values of words (00_scope.md R12): each word function reads over the integers as the rules of
42_convert_order.md and 44_arith.md derive it. A word is determined by its width and value, and a value by its residue
modulo 3^N, so a wrapping operation is settled by a congruence. -/

namespace Sys2Proof.Machine

/-! ## A word and its value (10_state.md R34) -/

theorem val_zeroWord (n : Nat) : val (zeroWord n) = 0 := by
  induction n with
  | zero => rfl
  | succ n ih =>
    have hcons : zeroWord (n + 1) = .zero :: zeroWord n := rfl
    rw [hcons, val_cons, ih]
    rfl

/-- The lowest trit is the value modulo 3, and the trits above it are the rest. -/
theorem eq_of_val_eq {v w : Word} (hlength : v.length = w.length) (h : val v = val w) : v = w := by
  induction v generalizing w with
  | nil => exact (List.length_eq_zero_iff.1 hlength.symm).symm
  | cons t v ih =>
    cases w with
    | nil => cases hlength
    | cons u w =>
      have ht := toInt_bounds t
      have hu := toInt_bounds u
      rw [val_cons, val_cons] at h
      have htrit : t = u := toInt_injective (by omega)
      have hrest : v = w := ih (Nat.succ.inj hlength) (by omega)
      rw [htrit, hrest]

/-- Settles O21: the bound, and the recovery of the trits from the value. -/
theorem wordsAreUniqueForTheirValue : Obligations.WordsAreUniqueForTheirValue :=
  ⟨natAbs_val_le_maxValue, fun _ _ => eq_of_val_eq⟩

theorem val_append (v w : Word) : val (v ++ w) = val v + 3 ^ v.length * val w := by
  induction v with
  | nil => simp [val_nil]
  | cons t v ih =>
    rw [List.cons_append, val_cons, val_cons, ih, List.length_cons]
    ring

theorem val_negWord (w : Word) : val (negWord w) = -val w := by
  induction w with
  | nil => rfl
  | cons t w ih =>
    have hcons : negWord (t :: w) = tritNeg t :: negWord w := rfl
    rw [hcons, val_cons, val_cons, ih, tritNeg_toInt]
    ring

/-! ## wrap_N (R12) -/

/-- The span 3^N has M values on either side of 0. -/
theorem three_pow_eq (n : Nat) : (3 : Int) ^ n = 2 * maxValue n + 1 := by
  induction n with
  | zero => rfl
  | succ n ih =>
    rw [pow_succ, ih, maxValue_succ]
    push_cast
    ring

/-- wrap_N(x) is the one value in [-M, M] that is x modulo 3^N. -/
theorem eq_wrapN {n : Nat} {v x : Int} (hv : v.natAbs ≤ maxValue n) (h : (3 : Int) ^ n ∣ x - v) : v = wrapN n x := by
  obtain ⟨k, hk⟩ := h
  have hspan := three_pow_eq n
  have hhalf : ((3 : Int) ^ n - 1) / 2 = maxValue n := by omega
  have hsplit : x + maxValue n = v + maxValue n + 3 ^ n * k := by omega
  rw [wrapN, hhalf, hsplit, Int.add_mul_emod_self_left, Int.emod_eq_of_lt (by omega) (by omega)]
  ring

theorem wrapN_of_natAbs_le {n : Nat} {x : Int} (h : x.natAbs ≤ maxValue n) : wrapN n x = x :=
  (eq_wrapN h (by simp)).symm

theorem dvd_sub_wrapN (n : Nat) (x : Int) : (3 : Int) ^ n ∣ x - wrapN n x := by
  refine ⟨(x + (3 ^ n - 1) / 2) / 3 ^ n, ?_⟩
  rw [wrapN, Int.emod_def]
  ring

/-- A word of N trits that is x modulo 3^N has the value wrap_N(x). -/
theorem val_eq_wrapN {n : Nat} {w : Word} {x : Int} (hw : w.length = n) (h : (3 : Int) ^ n ∣ x - val w) :
    val w = wrapN n x :=
  eq_wrapN (hw ▸ natAbs_val_le_maxValue w) h

/-! ## Addition (44_arith.md R120, R121) -/

/-- The adder law: the sum and the carry out hold the exact sum. -/
theorem val_fullAddWord {n : Nat} {a b : Word} (ha : a.length = n) (hb : b.length = n) (c : Trit) :
    val (fullAddWord a b c).1 + (fullAddWord a b c).2.toInt * 3 ^ n = val a + val b + c.toInt := by
  induction n generalizing a b c with
  | zero =>
    obtain rfl := List.length_eq_zero_iff.1 ha
    obtain rfl := List.length_eq_zero_iff.1 hb
    simp [fullAddWord, val_nil]
  | succ n ih =>
    obtain ⟨x, a, rfl⟩ := List.exists_cons_of_length_eq_add_one ha
    obtain ⟨y, b, rfl⟩ := List.exists_cons_of_length_eq_add_one hb
    have hlow := tritFullAdd_contract x y c
    have hhigh := ih (Nat.succ.inj ha) (Nat.succ.inj hb) (tritFullAdd x y c).2
    rw [fullAddWord]
    simp only [val_cons, pow_succ]
    linear_combination hlow + 3 * hhigh

theorem fullAddWord_length_eq {n : Nat} {a b : Word} (ha : a.length = n) (hb : b.length = n) (c : Trit) :
    (fullAddWord a b c).1.length = n :=
  (fullAddWord_ripples ha hb c).1

theorem val_fullAddWord_eq_wrapN {n : Nat} {a b : Word} (ha : a.length = n) (hb : b.length = n) (c : Trit) :
    val (fullAddWord a b c).1 = wrapN n (val a + val b + c.toInt) := by
  refine val_eq_wrapN (fullAddWord_length_eq ha hb c) ⟨(fullAddWord a b c).2.toInt, ?_⟩
  linear_combination -(val_fullAddWord ha hb c)

/-- The carry is Zero exactly when the exact sum stays in [-M, M]. -/
theorem fullAddWord_carry_eq_zero_iff {n : Nat} {a b : Word} (ha : a.length = n) (hb : b.length = n) (c : Trit) :
    (fullAddWord a b c).2 = .zero ↔ (val a + val b + c.toInt).natAbs ≤ maxValue n := by
  have hsum := val_fullAddWord ha hb c
  have hbound := fullAddWord_length_eq ha hb c ▸ natAbs_val_le_maxValue (fullAddWord a b c).1
  have hspan := three_pow_eq n
  cases hcarry : (fullAddWord a b c).2 <;> simp only [hcarry, Trit.toInt, reduceCtorEq, true_iff, false_iff] at * <;> omega

/-- Settles O45: the adder law, its residue, and its carry. -/
theorem addcIsExactWithItsCarry : Obligations.AddcIsExactWithItsCarry := by
  intro s a b c ha hb hc
  refine ⟨_, _, exec_addc ha hb hc, val_fullAddWord ha.2 hb.2 c, val_fullAddWord_eq_wrapN ha.2 hb.2 c, ?overflow⟩
  case overflow => rw [ne_eq, fullAddWord_carry_eq_zero_iff ha.2 hb.2, Nat.not_le]

/-- Settles O48: ADD and SUB are the full add of A with Bop and with its negation. -/
theorem addAndSubWrapModuloTheSpan : Obligations.AddAndSubWrapModuloTheSpan := by
  intro s a b ha hb
  have hneg : (negWord b).length = s.cfg.n := (negWord_length b).trans hb.2
  refine ⟨_, _, exec_add ha hb, exec_sub ha hb, fullAddWord_length_eq ha.2 hb.2 _, ?add,
    fullAddWord_length_eq ha.2 hneg _, ?sub⟩
  case add => simpa [Trit.toInt] using val_fullAddWord_eq_wrapN ha.2 hb.2 .zero
  case sub => simpa [Trit.toInt, val_negWord, sub_eq_add_neg] using val_fullAddWord_eq_wrapN ha.2 hneg .zero

/-! ## Sign, zero, order and magnitude (42_convert_order.md R91 to R93, 44_arith.md R127) -/

/-- A value outranks any trit below it. -/
theorem sign_add_three_mul {t v : Int} (ht : -1 ≤ t ∧ t ≤ 1) (hv : v ≠ 0) : (t + 3 * v).sign = v.sign := by
  obtain hneg | hpos := lt_or_gt_of_ne hv
  · rw [Int.sign_eq_neg_one_of_neg hneg, Int.sign_eq_neg_one_of_neg (by omega)]
  · rw [Int.sign_eq_one_of_pos hpos, Int.sign_eq_one_of_pos (by omega)]

theorem sign_toInt (t : Trit) : t.toInt.sign = t.toInt := by cases t <;> rfl

theorem toInt_eq_zero_iff (t : Trit) : t.toInt = 0 ↔ t = .zero := by cases t <;> decide

/-- The sign of a word is the sign of its value. -/
theorem signWord_toInt (w : Word) : (signWord w).toInt = (val w).sign := by
  induction w with
  | nil => rfl
  | cons t w ih =>
    rw [val_cons]
    by_cases hw : signWord w = .zero
    · have hval : val w = 0 := by rw [← Int.sign_eq_zero_iff_zero, ← ih, hw]; rfl
      rw [signWord_cons_of_zero hw, hval, mul_zero, add_zero, sign_toInt]
    · have hval : val w ≠ 0 := by rwa [ne_eq, ← Int.sign_eq_zero_iff_zero, ← ih, toInt_eq_zero_iff]
      rw [signWord_cons_of_ne_zero hw, ih, sign_add_three_mul (toInt_bounds t) hval]

theorem signWord_eq_neg_iff (w : Word) : signWord w = .neg ↔ val w < 0 := by
  have hsign := signWord_toInt w
  rw [← Int.sign_eq_neg_one_iff_neg, ← hsign]
  cases signWord w <;> decide

/-- The all-Zero word is the one of value 0. -/
theorem val_eq_zero_iff (w : Word) : val w = 0 ↔ ∀ t ∈ w, t = .zero := by
  have hsign := signWord_toInt w
  rw [← Int.sign_eq_zero_iff_zero, ← hsign, toInt_eq_zero_iff, ← isSign_zero_iff]
  exact ⟨fun h => h ▸ isSign_signWord w, (isSign_signWord w).unique⟩

theorem compareTrit_toInt (x y : Trit) : (compareTrit x y).toInt = (x.toInt - y.toInt).sign := by
  cases x <;> cases y <;> rfl

/-- The order of two words is the order of their values. -/
theorem compareWord_toInt {a b : Word} (h : a.length = b.length) :
    (compareWord a b).toInt = (val a - val b).sign := by
  induction a generalizing b with
  | nil =>
    obtain rfl := List.length_eq_zero_iff.1 h.symm
    rfl
  | cons x a ih =>
    cases b with
    | nil => cases h
    | cons y b =>
      have hrest := ih (Nat.succ.inj h)
      have hx := toInt_bounds x
      have hy := toInt_bounds y
      rw [val_cons, val_cons]
      by_cases hab : compareWord a b = .zero
      · have hval : val a - val b = 0 := by rw [← Int.sign_eq_zero_iff_zero, ← hrest, hab]; rfl
        rw [compareWord_cons_of_zero hab, compareTrit_toInt]
        congr 1
        omega
      · have hval : val a - val b ≠ 0 := by rwa [ne_eq, ← Int.sign_eq_zero_iff_zero, ← hrest, toInt_eq_zero_iff]
        rw [compareWord_cons_of_ne_zero hab, hrest]
        obtain hlt | hgt := lt_or_gt_of_ne hval
        · rw [Int.sign_eq_neg_one_of_neg hlt, Int.sign_eq_neg_one_of_neg (by omega)]
        · rw [Int.sign_eq_one_of_pos hgt, Int.sign_eq_one_of_pos (by omega)]

/-- Settles O38: T and ZF are those of the word functions, which read the values. -/
theorem signZeroAndOrderReadTheValues : Obligations.SignZeroAndOrderReadTheValues := by
  intro s a b ha hb
  refine ⟨signWord a, compareWord a b, isZeroWord a, exec_sign ha, signWord_toInt a, exec_iszero ha, ?zero,
    exec_cmp ha hb, compareWord_toInt (ha.2.trans hb.2.symm)⟩
  case zero => rw [isZeroWord_iff, val_eq_zero_iff]

theorem val_absWord (w : Word) : val (absWord w) = |val w| := by
  unfold absWord
  split
  case isTrue h => rw [val_negWord, abs_of_neg ((signWord_eq_neg_iff w).1 h)]
  case isFalse h => rw [abs_of_nonneg (not_lt.1 fun hneg => h ((signWord_eq_neg_iff w).2 hneg))]

/-- Settles O50: negation and magnitude of a value stay in [-M, M]. -/
theorem negAndAbsAreExact : Obligations.NegAndAbsAreExact := by
  intro s a ha
  exact ⟨_, _, exec_neg ha.1, (negWord_length a).trans ha.2, val_negWord a,
    exec_abs ha, (absWord_length a).trans ha.2, val_absWord a⟩

/-! ## Conversion from binary (42_convert_order.md R94, R95) -/

/-- One round of R94's loop splits q into a digit and three times the rest. -/
theorem balDigit_spec (q : Int) : (balDigit q).1.toInt + 3 * (balDigit q).2 = q := by
  have hdiv := Int.mul_tdiv_add_tmod q 3
  have hlt := Int.tmod_lt_of_pos q (by decide : (0 : Int) < 3)
  have hgt := Int.lt_tmod_of_pos q (by decide : (0 : Int) < 3)
  unfold balDigit
  split_ifs <;> simp only [Trit.toInt] <;> omega

/-- The digits and the quotient that is left hold the converted value. -/
theorem balDigits_spec (v : Int) (l : Nat) : val (balDigits v l).1 + 3 ^ l * (balDigits v l).2 = v := by
  induction l generalizing v with
  | zero => simp [balDigits, val_nil]
  | succ l ih =>
    rw [balDigits]
    split
    case isTrue hv => rw [← zeroWord, val_zeroWord, hv]; ring
    case isFalse =>
      have hdigit := balDigit_spec v
      have hrest := ih (balDigit v).2
      simp only [val_cons, pow_succ]
      linear_combination hdigit + 3 * hrest

/-- No quotient is left exactly when the value fits into the digits (43_subrange.md, end of R114). -/
theorem balDigits_quotient_eq_zero_iff (v : Int) (l : Nat) : (balDigits v l).2 = 0 ↔ v.natAbs ≤ maxValue l := by
  have hspec := balDigits_spec v l
  have hbound := balDigits_length v l ▸ natAbs_val_le_maxValue (balDigits v l).1
  have hspan := three_pow_eq l
  constructor
  · intro h
    rw [h] at hspec
    omega
  · intro h
    have hdvd : (3 : Int) ^ l ∣ v - val (balDigits v l).1 :=
      ⟨(balDigits v l).2, by linear_combination -hspec⟩
    have hzero := Int.eq_zero_of_abs_lt_dvd hdvd (by rw [abs_lt]; omega)
    have hmul : (3 : Int) ^ l * (balDigits v l).2 = 0 := by linear_combination hspec + hzero
    exact (mul_eq_zero.1 hmul).resolve_left (pow_ne_zero l (by decide))

theorem val_fromNative (n : Nat) (v : Int) : val (fromNative n v) = wrapN n v :=
  val_eq_wrapN (fromNative_length n v) ⟨(balDigits v n).2, by rw [fromNative]; linear_combination -(balDigits_spec v n)⟩

theorem exec_frombin (s : State) :
    exec .frombin s = .next { s with y := fromNative s.cfg.n s.operandX, status := 0#4 } := rfl

/-- Settles O33: FROMBIN writes N digits of X, which are X modulo 3^N. -/
theorem frombinWrapsModuloTheSpan : Obligations.FrombinWrapsModuloTheSpan := fun s =>
  ⟨_, exec_frombin s, fromNative_length _ _, val_fromNative _ _⟩

/-- Settles O39: X in [-M, M] is its own wrap, and TOBIN gives the value of the word. -/
theorem binaryRoundTrip : Obligations.BinaryRoundTrip := by
  intro s t u hlegal hx ht hcfg ha
  cases (exec_frombin s).symm.trans ht
  have hu : u.HasA (fromNative s.cfg.n s.operandX) := ⟨ha, (fromNative_length _ _).trans (congrArg Config.n hcfg).symm⟩
  obtain ⟨z, hz, -, hvalue⟩ := tobinGivesTheValue.2 u _ hu
  refine ⟨z, hz, ?value⟩
  case value => rw [hvalue (hcfg ▸ hlegal), val_fromNative, wrapN_of_natAbs_le hx]

/-! ## Shift and product (44_arith.md R129, 45_muldiv.md R140) -/

/-- The value of a word by its trits below index k and those from k on. -/
theorem val_take_add_drop (w : Word) {k : Nat} (hk : k ≤ w.length) :
    val w = val (w.take k) + 3 ^ k * val (w.drop k) := by
  conv_lhs => rw [← List.take_append_drop k w, val_append, List.length_take_of_le hk]

/-- A shift by k multiplies by 3^k and drops the trits that leave the word. -/
theorem val_shiftLeft {w : Word} {k : Nat} (hk : k ≤ w.length) :
    val (shiftLeft w k) = val w * 3 ^ k - 3 ^ w.length * val (w.drop (w.length - k)) := by
  obtain rfl | hlt := hk.eq_or_lt
  · simp [shiftLeft, val_zeroWord, mul_comm]
  · have hsplit := val_take_add_drop w (Nat.sub_le w.length k)
    have hpow : (3 : Int) ^ w.length = 3 ^ k * 3 ^ (w.length - k) := by rw [← pow_add, Nat.add_sub_cancel' hk]
    rw [shiftLeft, if_neg (Nat.not_le.2 hlt), val_append, ← zeroWord, val_zeroWord, zeroWord_length, hpow]
    linear_combination (-(3 : Int) ^ k) * hsplit

/-- A shift is the product with 3^k modulo 3^N, for every k. -/
theorem dvd_sub_val_shiftLeft (w : Word) (k : Nat) : (3 : Int) ^ w.length ∣ val w * 3 ^ k - val (shiftLeft w k) := by
  obtain hk | hk := le_or_gt k w.length
  · exact ⟨val (w.drop (w.length - k)), by rw [val_shiftLeft hk]; ring⟩
  · rw [shiftLeft, if_pos hk.le, val_zeroWord, sub_zero]
    exact (pow_dvd_pow 3 hk.le).mul_left _

/-- Settles O53: the shifted word is val(A)·3^S modulo 3^N. -/
theorem shlMultipliesByAPowerOfThree : Obligations.ShlMultipliesByAPowerOfThree := by
  intro s a k ha
  exact ⟨_, exec_shl ha k,
    val_eq_wrapN ((shiftLeft_length a k).trans ha.2) (ha.2 ▸ dvd_sub_val_shiftLeft a k)⟩

/-- One round of R140's loop adds val(a)·t·3^i modulo 3^N. -/
theorem val_mulRound_modEq {a acc : Word} (h : acc.length = a.length) (i : Nat) (t : Trit) :
    val (mulRound a i t acc) ≡ val acc + val a * (t.toInt * 3 ^ i) [ZMOD 3 ^ a.length] := by
  have hshift := shiftLeft_length a i
  have hdvd := dvd_sub_val_shiftLeft a i
  rw [Int.modEq_iff_dvd]
  cases t with
  | zero => simp [mulRound, Trit.toInt]
  | pos =>
    have hadd := val_fullAddWord h hshift .zero
    have hexact : val acc + val a * (Trit.pos.toInt * 3 ^ i) - val (mulRound a i .pos acc)
        = val a * 3 ^ i - val (shiftLeft a i) + 3 ^ a.length * (fullAddWord acc (shiftLeft a i) .zero).2.toInt := by
      simp only [mulRound, Trit.toInt] at hadd ⊢
      linear_combination -hadd
    rw [hexact]
    exact hdvd.add (Dvd.intro _ rfl)
  | neg =>
    have hadd := val_fullAddWord h ((negWord_length _).trans hshift) .zero
    rw [val_negWord] at hadd
    have hexact : val acc + val a * (Trit.neg.toInt * 3 ^ i) - val (mulRound a i .neg acc)
        = -(val a * 3 ^ i - val (shiftLeft a i))
          + 3 ^ a.length * (fullAddWord acc (negWord (shiftLeft a i)) .zero).2.toInt := by
      simp only [mulRound, Trit.toInt] at hadd ⊢
      linear_combination -hadd
    rw [hexact]
    exact hdvd.neg_right.add (Dvd.intro _ rfl)

/-- The loop from index i on adds val(a)·val(b)·3^i modulo 3^N. -/
theorem val_mulFrom_modEq {a acc : Word} (h : acc.length = a.length) (i : Nat) (b : Word) :
    val (mulFrom a i b acc) ≡ val acc + val a * (val b * 3 ^ i) [ZMOD 3 ^ a.length] := by
  induction b generalizing i acc with
  | nil => simp [mulFrom, val_nil]
  | cons t b ih =>
    rw [mulFrom_cons]
    calc val (mulFrom a (i + 1) b (mulRound a i t acc))
        ≡ val (mulRound a i t acc) + val a * (val b * 3 ^ (i + 1)) [ZMOD 3 ^ a.length] :=
          ih (mulRound_length h i t) (i + 1)
      _ ≡ val acc + val a * (t.toInt * 3 ^ i) + val a * (val b * 3 ^ (i + 1)) [ZMOD 3 ^ a.length] :=
          (val_mulRound_modEq h i t).add_right _
      _ = val acc + val a * (val (t :: b) * 3 ^ i) := by rw [val_cons]; ring

theorem val_mulWord {n : Nat} {a : Word} (ha : a.length = n) (b : Word) : val (mulWord a b) = wrapN n (val a * val b) := by
  subst ha
  have hloop := val_mulFrom_modEq (zeroWord_length a.length) 0 b
  rw [val_zeroWord, zero_add, pow_zero, mul_one] at hloop
  exact val_eq_wrapN (mulWord_length a b) hloop.dvd

theorem exec_mul {s : State} {a b : Word} (ha : s.HasA a) (hb : s.HasB b) :
    exec .mul s = .next { s with y := mulWord a b, status := 0#4 } := by
  rw [exec, execMul, ha.1, withWord_encWord, hb.1, withWord_encWord, succeed_setY]

/-- Settles O54: MUL writes `mulWord`, whose value is the product modulo 3^N. -/
theorem mulWrapsModuloTheSpan : Obligations.MulWrapsModuloTheSpan := by
  intro s a b ha hb
  exact ⟨_, exec_mul ha hb, (mulWord_length a b).trans ha.2, val_mulWord ha.2 b⟩

end Sys2Proof.Machine
end

section
/-! PROOFS. What WRRANGE inserts and RDRANGE reads back (43_subrange.md R113 to R115, section 2): the digits of X are a word of the
span's width and of value X, and a span is read from its own trits alone. -/

namespace Sys2Proof

/-- R61 and R60: WRRANGE is opcode 0x0D and uses fields S and E. -/
theorem decode_packFields_wrrange (cap : Bool) (start stop : BitVec 8) :
    decode cap (packFields 0x0D#5 start stop 0#2) = .ok (.wrrange start.toNat stop.toNat) := by
  obtain ⟨hopc, hstart, hstop, hwidth, hrsv⟩ := Laws.EncodedFields.pack_fields 0x0D#5 start stop 0#2
  refine (decode_eq_ok_iff _ _ _).2 ⟨hrsv, ?row, ⟨fun _ => rfl, fun _ => rfl, absurd hwidth⟩, fun _ => nofun⟩
  case row =>
    rw [hopc, hstart, hstop]
    rfl

/-- The word of WRRANGE is the layout of R54 with the field W zero. -/
theorem wrrange_word_eq_packFields (start stop : BitVec 8) :
    0x0D#32 ||| start.setWidth 32 <<< 5 ||| stop.setWidth 32 <<< 13 = packFields 0x0D#5 start stop 0#2 := by
  simpa using or_shiftLeft_eq_packFields 0x0D#5 start stop 0#2

end Sys2Proof

namespace Sys2Proof.Machine

/-! ## The span of a word -/

/-- Trits `start` to `stop` of a word, as the statements write them (R111). -/
def span (w : Word) (start stop : Nat) : Word := (w.drop start).take (stop - start + 1)

/-- A valid span has stop - start + 1 trits, at most N of them. -/
theorem span_length {w : Word} {start stop : Nat} (hle : start ≤ stop) (hlt : stop < w.length) :
    (span w start stop).length = stop - start + 1 := by
  simp only [span, List.length_take, List.length_drop]
  omega

theorem maxValue_mono {m n : Nat} (h : m ≤ n) : maxValue m ≤ maxValue n :=
  Nat.div_le_div_right (Nat.sub_le_sub_right (Nat.pow_le_pow_right (by decide) h) 1)

theorem natAbs_val_span_le {w : Word} {start stop : Nat} (hle : start ≤ stop) (hlt : stop < w.length) :
    (val (span w start stop)).natAbs ≤ maxValue w.length := by
  have hwidth := span_length hle hlt
  exact (natAbs_val_le_maxValue _).trans (maxValue_mono (by omega))

/-- A span below index k is one of the first k trits. -/
theorem span_take {w : Word} {start stop k : Nat} (hle : start ≤ stop) (hk : stop < k) :
    span (w.take k) start stop = span w start stop := by
  rw [span, span, List.drop_take, List.take_take, Nat.min_eq_left (by omega)]

/-- A span from index k on is one of the trits from k on. -/
theorem span_drop {w : Word} {start stop k : Nat} (hk : k ≤ start) (hle : start ≤ stop) :
    span (w.drop k) (start - k) (stop - k) = span w start stop := by
  rw [span, span, List.drop_drop, Nat.add_sub_cancel' hk]
  congr 1
  omega

/-! ## Replacing the span (R114) -/

/-- Digits written over a span are what is read there, and the trits on both sides stay. -/
theorem replace_span {a d : Word} {start stop : Nat} (hle : start ≤ stop) (hlt : stop < a.length)
    (hd : d.length = stop - start + 1) :
    (a.take start ++ d ++ a.drop (stop + 1)).length = a.length
      ∧ (a.take start ++ d ++ a.drop (stop + 1)).take start = a.take start
      ∧ (a.take start ++ d ++ a.drop (stop + 1)).drop (stop + 1) = a.drop (stop + 1)
      ∧ span (a.take start ++ d ++ a.drop (stop + 1)) start stop = d := by
  have hlow : (a.take start).length = start := List.length_take_of_le (by omega)
  have hmid : (a.take start ++ d).length = stop + 1 := by rw [List.length_append, hlow]; omega
  refine ⟨?width, ?below, List.drop_left' hmid, ?inside⟩
  case width => rw [List.length_append, hmid, List.length_drop]; omega
  case below => rw [List.append_assoc, List.take_left' hlow]
  case inside => rw [span, List.append_assoc, List.drop_left' hlow, List.take_left' hd]

theorem writeRange_of_fits {v : Int} {start stop : Nat} (h : v.natAbs ≤ maxValue (stop - start + 1)) (a : Word) :
    writeRange a v start stop
      = some (a.take start ++ (balDigits v (stop - start + 1)).1 ++ a.drop (stop + 1)) := by
  simp [writeRange, (balDigits_quotient_eq_zero_iff v _).2 h]

theorem writeRange_of_not_fits {v : Int} {start stop : Nat} (h : maxValue (stop - start + 1) < v.natAbs) (a : Word) :
    writeRange a v start stop = none := by
  simp [writeRange, balDigits_quotient_eq_zero_iff, h]

/-- The digits of a value that fits have it. -/
theorem val_balDigits_of_fits {v : Int} {l : Nat} (h : v.natAbs ≤ maxValue l) : val (balDigits v l).1 = v := by
  have hspec := balDigits_spec v l
  rwa [(balDigits_quotient_eq_zero_iff v l).2 h, mul_zero, add_zero] at hspec

/-! ## WRRANGE (R115) -/

theorem exec_wrrange_of_invalid {s : State} {a : Word} (ha : s.HasA a) {start stop : Nat}
    (h : ¬ (start ≤ stop ∧ stop < s.cfg.n)) : exec (.wrrange start stop) s = .next { s with status := 2#4 } := by
  rw [exec, execWrrange, ha.1, withWord_encWord, withRange_of_invalid h]
  rfl

theorem exec_wrrange_of_some {s : State} {a w : Word} (ha : s.HasA a) {start stop : Nat}
    (h : start ≤ stop ∧ stop < s.cfg.n) (hw : writeRange a s.operandX start stop = some w) :
    exec (.wrrange start stop) s = .next { s with y := w, status := 0#4 } := by
  rw [exec, execWrrange, ha.1, withWord_encWord, withRange_of_valid h, hw]
  rfl

theorem exec_wrrange_of_none {s : State} {a : Word} (ha : s.HasA a) {start stop : Nat}
    (h : start ≤ stop ∧ stop < s.cfg.n) (hw : writeRange a s.operandX start stop = none) :
    exec (.wrrange start stop) s = .next { s with status := 3#4 } := by
  rw [exec, execWrrange, ha.1, withWord_encWord, withRange_of_valid h, hw]
  rfl

/-- Settles O42: the word is the layout of R54; the ends of WRRANGE are those of its range check and of `writeRange`, which
answers exactly for the values that fit the span. -/
theorem wrrangeReplacesTheSpan : Obligations.WrrangeReplacesTheSpan := by
  refine ⟨fun start stop => ?word, fun s a start stop ha => ⟨exec_wrrange_of_invalid ha, fun hle hlt hfits => ?fits,
    fun hle hlt hlarge => ?large⟩⟩
  case word => rw [wrrange_word_eq_packFields, decode_packFields_wrrange]
  case fits =>
    obtain ⟨hwidth, hbelow, habove, hinside⟩ :=
      replace_span hle (ha.2 ▸ hlt) (balDigits_length s.operandX (stop - start + 1))
    refine ⟨_, exec_wrrange_of_some ha ⟨hle, hlt⟩ (writeRange_of_fits hfits a), hwidth.trans ha.2, hbelow, habove, ?_⟩
    rw [← span, hinside, val_balDigits_of_fits hfits]
  case large => exact exec_wrrange_of_none ha ⟨hle, hlt⟩ (writeRange_of_not_fits hlarge a)

/-! ## RDRANGE with W = 0 (R113) -/

/-- The binary port of a legal block is wide enough for every span (R8). -/
theorem fits_port_of_legal {c : Config} (hc : c.Legal) {v : Int} (hv : v.natAbs ≤ maxValue c.n) : fits c.b v = true := by
  obtain ⟨-, -, -, hfit⟩ := hc
  have hpow : 0 < 2 ^ (c.b - 1) := Nat.two_pow_pos _
  have hmax : (maxValue c.n : Int) < 2 ^ (c.b - 1) := by exact_mod_cast (by omega : maxValue c.n < 2 ^ (c.b - 1))
  rw [fits_iff]
  omega

/-- What RDRANGE with W = 0 writes depends on the span alone, and reads back as its value. -/
theorem exec_rdrange_portWidth {s : State} {a : Word} {start stop : Nat} (hlegal : s.cfg.Legal) (ha : s.HasA a)
    (hle : start ≤ stop) (hlt : stop < s.cfg.n) :
    exec (.rdrange start stop .portWidth) s
        = .next { s with z := sext s.cfg.b (val (span a start stop)), status := 0#4 }
      ∧ sval (sext s.cfg.b (val (span a start stop))) = val (span a start stop) := by
  have hbound : (val (span a start stop)).natAbs ≤ maxValue s.cfg.n := ha.2 ▸ natAbs_val_span_le hle (ha.2 ▸ hlt)
  have hread : readRange a start stop = val (span a start stop) := readRange_eq_val a start stop
  refine ⟨?result, sval_sext_of_legal hlegal hbound⟩
  case result =>
    rw [← hread] at hbound ⊢
    exact exec_rdrange_of_fits ha ⟨hle, hlt⟩ (fits_port_of_legal hlegal hbound)

/-- Settles O41: the width check of R113 passes, and Z reads as the span's value. -/
theorem rdrangeOfPortWidthNeverOverflows : Obligations.RdrangeOfPortWidthNeverOverflows := by
  intro s a start stop hlegal ha hle hlt
  obtain ⟨hexec, hvalue⟩ := exec_rdrange_portWidth hlegal ha hle hlt
  exact ⟨_, hexec, hvalue⟩

/-! ## The round trip (43_subrange.md section 2) -/

/-- A WRRANGE that ends with STATUS = 0 had a valid range and a value that fits. -/
theorem wrrange_succeeded {s t : State} {a : Word} {start stop : Nat} (ha : s.HasA a)
    (ht : exec (.wrrange start stop) s = .next t) (hstatus : t.status = 0#4) :
    start ≤ stop ∧ stop < s.cfg.n ∧ s.operandX.natAbs ≤ maxValue (stop - start + 1) := by
  by_cases hrange : start ≤ stop ∧ stop < s.cfg.n
  · refine ⟨hrange.1, hrange.2, Nat.not_lt.1 fun hlarge => ?_⟩
    cases (exec_wrrange_of_none ha hrange (writeRange_of_not_fits hlarge a)).symm.trans ht
    cases hstatus
  · cases (exec_wrrange_of_invalid ha hrange).symm.trans ht
    cases hstatus

/-- Words that agree below `start` and above `stop` have the same span outside. -/
theorem span_eq_of_disjoint {w a : Word} {start stop start' stop' : Nat} (hbelow : w.take start = a.take start)
    (habove : w.drop (stop + 1) = a.drop (stop + 1)) (hle' : start' ≤ stop') (h : stop' < start ∨ stop < start') :
    span w start' stop' = span a start' stop' := by
  obtain hlow | hhigh := h
  · rw [← span_take hle' hlow, hbelow, span_take hle' hlow]
  · rw [← span_drop hhigh hle', habove, span_drop hhigh hle']

/-- Settles O43: the written word has value X in the span and the trits of A outside it. -/
theorem subrangeRoundTrip : Obligations.SubrangeRoundTrip := by
  intro s t u a start stop start' stop' hlegal ha ht hstatus hcfg hu
  obtain ⟨hle, hlt, hfits⟩ := wrrange_succeeded ha ht hstatus
  obtain ⟨w, hw, hwidth, hbelow, habove, hinside⟩ := (wrrangeReplacesTheSpan.2 s a start stop ha).2.1 hle hlt hfits
  cases hw.symm.trans ht
  have huA : u.HasA w := ⟨hu, hwidth.trans (congrArg Config.n hcfg).symm⟩
  have hulegal : u.cfg.Legal := hcfg ▸ hlegal
  refine ⟨?inserted, fun hle' hlt' hdisjoint => ?untouched⟩
  case inserted =>
    obtain ⟨hexec, hvalue⟩ := exec_rdrange_portWidth hulegal huA hle (hcfg ▸ hlt)
    exact ⟨_, hexec, hvalue.trans hinside⟩
  case untouched =>
    obtain ⟨hexec, -⟩ := exec_rdrange_portWidth hulegal huA hle' (hcfg ▸ hlt')
    obtain ⟨hexecA, -⟩ := exec_rdrange_portWidth hlegal ha hle' hlt'
    rw [span_eq_of_disjoint hbelow habove hle' hdisjoint, congrArg Config.b hcfg] at hexec
    exact ⟨_, hexec, hexecA⟩

end Sys2Proof.Machine
end

section
/-! PROOFS. DIVREM (45_muldiv.md R143 to R147). The words of the loop are read over the integers once, position by position; what
the spec derives of a division is then proved of the integer loop `divLoopInt` under either reading of R145. -/

namespace Sys2Proof.Machine

/-! ## The most significant index (R143) -/

theorem msbIndex_eq_none_iff (w : Word) : msbIndex w = none ↔ ∀ t ∈ w, t = .zero := by
  induction w with
  | nil => simp [msbIndex]
  | cons t w ih =>
    rw [List.forall_mem_cons, ← ih]
    cases hw : msbIndex w <;> simp [msbIndex, hw]

theorem msbIndex_cons_eq_some_zero_iff (t : Trit) (w : Word) :
    msbIndex (t :: w) = some 0 ↔ t ≠ .zero ∧ msbIndex w = none := by
  cases hw : msbIndex w <;> simp [msbIndex, hw]

theorem msbIndex_cons_eq_some_succ_iff (t : Trit) (w : Word) (m : Nat) :
    msbIndex (t :: w) = some (m + 1) ↔ msbIndex w = some m := by
  cases hw : msbIndex w <;> simp [msbIndex, hw]

/-- The recursion finds the index of the statements. -/
theorem msbIndex_eq_some_iff {w : Word} {m : Nat} : msbIndex w = some m ↔ IsMsb w m := by
  induction w generalizing m with
  | nil => simp [msbIndex, IsMsb]
  | cons t w ih =>
    cases m with
    | zero =>
      rw [msbIndex_cons_eq_some_zero_iff, msbIndex_eq_none_iff]
      rfl
    | succ m =>
      rw [msbIndex_cons_eq_some_succ_iff, ih]
      rfl

theorem exists_isMsb {w : Word} (h : ∃ t ∈ w, t ≠ .zero) : ∃ m, IsMsb w m := by
  obtain ⟨t, ht, hne⟩ := h
  cases hw : msbIndex w with
  | none => exact absurd ((msbIndex_eq_none_iff w).1 hw t ht) hne
  | some m => exact ⟨m, msbIndex_eq_some_iff.1 hw⟩

theorem IsMsb.lt_length {w : Word} {m : Nat} (h : IsMsb w m) : m < w.length :=
  lt_length_of_msbIndex (msbIndex_eq_some_iff.2 h)

theorem IsMsb.val_ne_zero {w : Word} {m : Nat} (h : IsMsb w m) : val w ≠ 0 := by
  intro hzero
  rw [val_eq_zero_iff, ← msbIndex_eq_none_iff, msbIndex_eq_some_iff.2 h] at hzero
  cases hzero

theorem msbIndex_negWord (w : Word) : msbIndex (negWord w) = msbIndex w := by
  induction w with
  | nil => rfl
  | cons t w ih =>
    have hcons : negWord (t :: w) = tritNeg t :: negWord w := rfl
    rw [hcons, msbIndex, msbIndex, ih]
    cases t <;> rfl

theorem msbIndex_absWord (w : Word) : msbIndex (absWord w) = msbIndex w := by
  unfold absWord
  split
  · exact msbIndex_negWord w
  · rfl

/-- A word is no larger than its trits up to the most significant one allow. -/
theorem IsMsb.natAbs_val_le {w : Word} {m : Nat} (h : IsMsb w m) : (val w).natAbs ≤ maxValue (m + 1) := by
  have hhigh : val (w.drop (m + 1)) = 0 := (val_eq_zero_iff _).2 h.2
  have hlow := natAbs_val_le_maxValue (w.take (m + 1))
  rw [List.length_take_of_le h.lt_length] at hlow
  rwa [val_take_add_drop w h.lt_length, hhigh, mul_zero, add_zero]

theorem maxValue_mul_pow_le (m k : Nat) : maxValue m * 3 ^ k ≤ maxValue (m + k) := by
  induction k with
  | zero => simp
  | succ k ih =>
    rw [pow_succ, ← Nat.mul_assoc, ← Nat.add_assoc, maxValue_succ]
    omega

/-- The shifted divisors of the positions below N - m are in [-M, M]: the divisor's trits stay in the word (R144). -/
theorem IsMsb.shifted_le {w : Word} {m n i : Nat} (h : IsMsb w m) (hi : i < n - m) :
    (val w).natAbs * 3 ^ i ≤ maxValue n := by
  calc (val w).natAbs * 3 ^ i ≤ maxValue (m + 1) * 3 ^ i := Nat.mul_le_mul_right _ h.natAbs_val_le
    _ ≤ maxValue (m + 1 + i) := maxValue_mul_pow_le _ _
    _ ≤ maxValue n := maxValue_mono (by omega)

/-! ## One position of the loop, read over the integers (R145) -/

theorem natAbs_mul_pow (d : Int) (i : Nat) : (d * 3 ^ i).natAbs = d.natAbs * 3 ^ i := by
  rw [Int.natAbs_mul, Int.natAbs_pow]
  rfl

/-- A shift that drops no trit multiplies by 3^k. -/
theorem val_shiftLeft_of_le {n : Nat} {w : Word} (hw : w.length = n) {k : Nat}
    (h : (val w).natAbs * 3 ^ k ≤ maxValue n) : val (shiftLeft w k) = val w * 3 ^ k := by
  subst hw
  rw [val_eq_wrapN (shiftLeft_length w k) (dvd_sub_val_shiftLeft w k)]
  exact wrapN_of_natAbs_le ((natAbs_mul_pow _ _).trans_le h)

/-- The comparison of R145 compares the magnitudes of the values. -/
theorem compareWord_absWord_ne_pos_iff {t r : Word} (h : t.length = r.length) :
    compareWord (absWord t) (absWord r) ≠ .pos ↔ (val t).natAbs ≤ (val r).natAbs := by
  have hcompare := compareWord_toInt (a := absWord t) (b := absWord r) (by simpa using h)
  have hpos (u : Trit) : u ≠ .pos ↔ u.toInt ≠ 1 := by cases u <;> decide
  rw [hpos, hcompare, val_absWord, val_absWord, ne_eq, Int.sign_eq_one_iff_pos, Int.abs_eq_natAbs, Int.abs_eq_natAbs]
  omega

theorem acceptTrial_wrap_iff {t r : Word} (h : t.length = r.length) (c : Trit) :
    acceptTrial .wrap t c r = true ↔ (val t).natAbs ≤ (val r).natAbs := by
  rw [acceptTrial, decide_eq_true_iff, compareWord_absWord_ne_pos_iff h]

theorem acceptTrial_exact_iff {t r : Word} (h : t.length = r.length) (c : Trit) :
    acceptTrial .exact t c r = true ↔ c = .zero ∧ (val t).natAbs ≤ (val r).natAbs := by
  rw [acceptTrial, Bool.and_eq_true, decide_eq_true_iff, decide_eq_true_iff, compareWord_absWord_ne_pos_iff h]

section
variable {n : Nat} {r x : Word} (hr : r.length = n) (hx : x.length = n)
include hr hx

/-- A trial on words is the trial on their values: the accepted word has the accepted value. -/
theorem trialInt_val (tent : DivTentative) :
    trialInt tent n (val r + val x) (val r)
      = if acceptTrial tent (fullAddWord r x .zero).1 (fullAddWord r x .zero).2 r then
          some (val (fullAddWord r x .zero).1)
        else none := by
  have hlength : (fullAddWord r x .zero).1.length = r.length := (fullAddWord_length_eq hr hx _).trans hr.symm
  cases tent with
  | wrap =>
    have hwrap := val_fullAddWord_eq_wrapN hr hx .zero
    rw [Trit.toInt, add_zero] at hwrap
    simp only [trialInt, ← hwrap, acceptTrial_wrap_iff hlength]
  | exact =>
    have hcarry := fullAddWord_carry_eq_zero_iff hr hx .zero
    have hsum := val_fullAddWord hr hx .zero
    rw [Trit.toInt, add_zero] at hcarry hsum
    simp only [trialInt, acceptTrial_exact_iff hlength, hcarry]
    by_cases hfits : (val r + val x).natAbs ≤ maxValue n
    · rw [hcarry.2 hfits, Trit.toInt, zero_mul, add_zero] at hsum
      rw [hsum]
    · simp [hfits]

end

theorem divStep_eq (tent : DivTentative) (s r : Word) :
    divStep tent s r
      = if acceptTrial tent (fullAddWord r (negWord s) .zero).1 (fullAddWord r (negWord s) .zero).2 r then
          (.pos, (fullAddWord r (negWord s) .zero).1)
        else if acceptTrial tent (fullAddWord r s .zero).1 (fullAddWord r s .zero).2 r then
          (.neg, (fullAddWord r s .zero).1)
        else (.zero, r) := rfl

/-- One position of R144's loop on words is that position on their values. -/
theorem divStep_val {n : Nat} (tent : DivTentative) {s r : Word} (hs : s.length = n) (hr : r.length = n) :
    ((divStep tent s r).1.toInt, val (divStep tent s r).2) = divStepInt tent n (val s) (val r) := by
  have hsub := trialInt_val hr ((negWord_length s).trans hs) tent
  have hadd := trialInt_val hr hs tent
  rw [val_negWord, ← sub_eq_add_neg] at hsub
  rw [divStepInt, hsub, hadd, divStep_eq]
  split
  · rfl
  · split <;> rfl

/-! ## The loop and the division, read over the integers (R144) -/

theorem divLoop_succ (tent : DivTentative) (d : Word) (k : Nat) (r : Word) :
    divLoop tent d (k + 1) r
      = ((divLoop tent d k (divStep tent (shiftLeft d k) r).2).1 ++ [(divStep tent (shiftLeft d k) r).1],
          (divLoop tent d k (divStep tent (shiftLeft d k) r).2).2) := rfl

theorem divLoopInt_succ (tent : DivTentative) (n : Nat) (d : Int) (k : Nat) (r : Int) :
    divLoopInt tent n d (k + 1) r
      = ((divStepInt tent n (d * 3 ^ k) r).1 * 3 ^ k
            + (divLoopInt tent n d k (divStepInt tent n (d * 3 ^ k) r).2).1,
          (divLoopInt tent n d k (divStepInt tent n (d * 3 ^ k) r).2).2) := rfl

/-- The loop on words is the loop on their values, as long as the shifted divisors stay in [-M, M]. -/
theorem divLoop_val {n : Nat} (tent : DivTentative) {d : Word} (hd : d.length = n) {k : Nat}
    (hshift : ∀ i < k, (val d).natAbs * 3 ^ i ≤ maxValue n) {r : Word} (hr : r.length = n) :
    (val (divLoop tent d k r).1, val (divLoop tent d k r).2) = divLoopInt tent n (val d) k (val r) := by
  induction k generalizing r with
  | zero => rfl
  | succ k ih =>
    have hlength : (shiftLeft d k).length = n := (shiftLeft_length d k).trans hd
    have hstep := divStep_val tent hlength hr
    rw [val_shiftLeft_of_le hd (hshift k k.lt_succ_self)] at hstep
    have hr' : (divStep tent (shiftLeft d k) r).2.length = n := divStep_length tent hlength hr
    have hrest := ih (fun i hi => hshift i (hi.trans k.lt_succ_self)) hr'
    obtain ⟨hq, -⟩ := divLoop_length tent hd k hr'
    rw [divLoopInt_succ, ← hstep, ← hrest, divLoop_succ]
    refine Prod.ext ?quotient rfl
    case quotient =>
      simp only [val_append, hq, val_cons, val_nil]
      ring

/-- The division for a divisor with a most significant index: the loop, the quotient's higher Zeros, and its sign. -/
theorem divRem_of_isMsb {d : Word} {m : Nat} (hm : IsMsb d m) (tent : DivTentative) (a : Word) :
    divRem tent a d
      = (if signWord d = .neg then negWord ((divLoop tent (absWord d) (a.length - m) a).1 ++ zeroWord m)
          else (divLoop tent (absWord d) (a.length - m) a).1 ++ zeroWord m,
          (divLoop tent (absWord d) (a.length - m) a).2) := by
  rw [divRem, msbIndex_absWord, msbIndex_eq_some_iff.2 hm]
  rfl

/-- The division on words is the integer loop on their values, with the divisor's sign on the quotient. -/
theorem divRem_val {n : Nat} (tent : DivTentative) {a d : Word} {m : Nat} (ha : a.length = n) (hd : d.length = n)
    (hm : IsMsb d m) :
    val (divRem tent a d).2 = (divLoopInt tent n |val d| (n - m) (val a)).2
      ∧ val (divRem tent a d).1
        = (if val d < 0 then -1 else 1) * (divLoopInt tent n |val d| (n - m) (val a)).1 := by
  have hshift : ∀ i < n - m, (val (absWord d)).natAbs * 3 ^ i ≤ maxValue n := fun i hi => by
    rw [val_absWord, Int.natAbs_abs]
    exact hm.shifted_le hi
  have hloop := divLoop_val tent ((absWord_length d).trans hd) hshift ha
  rw [val_absWord] at hloop
  rw [← hloop, divRem_of_isMsb hm, ha]
  refine ⟨rfl, ?quotient⟩
  case quotient =>
    simp only [signWord_eq_neg_iff]
    split <;> simp [val_negWord, val_append, val_zeroWord]

theorem exec_divrem {s : State} {a b : Word} {m : Nat} (ha : s.HasA a) (hb : s.HasB b) (hm : IsMsb b m) :
    exec .divrem s
      = .next { s with y := (divRem s.cfg.divTentative a b).1, r := (divRem s.cfg.divTentative a b).2, status := 0#4 } := by
  have hnonzero : ¬ isZeroWord b = true := by
    rw [isZeroWord_iff, ← val_eq_zero_iff]
    exact hm.val_ne_zero
  rw [exec, execDivrem, ha.1, withWord_encWord, hb.1, withWord_encWord, if_neg hnonzero]
  rfl

/-- Settles O56: DIVREM writes `divRem`, whose values are those of the integer loop. -/
theorem divremRefinesTheIntegerLoop : Obligations.DivremRefinesTheIntegerLoop := by
  intro s a b m ha hb hm
  obtain ⟨hq, hr⟩ := divRem_length s.cfg.divTentative ha.2 hb.2
  exact ⟨_, _, exec_divrem ha hb hm, hq, hr, divRem_val s.cfg.divTentative ha.2 hb.2 hm⟩

/-! ## What holds of the integer loop under both readings (R146) -/

/-- What k positions of the loop guarantee of the quotient and the remainder they give for the dividend r: the invariant
modulo 3^N, exact under EXACT, a remainder no larger than the dividend, and a quotient of k trits. -/
structure DividesWithin (tent : DivTentative) (n k : Nat) (d r : Int) (qr : Int × Int) : Prop where
  invariant : (3 : Int) ^ n ∣ qr.1 * d + qr.2 - r
  exactly : tent = .exact → qr.1 * d + qr.2 = r
  remainder : qr.2.natAbs ≤ r.natAbs
  quotient : qr.1.natAbs ≤ maxValue k

/-- An accepted trial is the exact result modulo 3^N, exactly it under EXACT, and no larger than the remainder. -/
theorem trialInt_eq_some {tent : DivTentative} {n : Nat} {t r x : Int} (h : trialInt tent n t r = some x) :
    (3 : Int) ^ n ∣ x - t ∧ (tent = .exact → x = t) ∧ x.natAbs ≤ r.natAbs := by
  cases tent with
  | wrap =>
    simp only [trialInt, Option.ite_none_right_eq_some, Option.some.injEq] at h
    obtain ⟨hle, rfl⟩ := h
    exact ⟨dvd_sub_comm.1 (dvd_sub_wrapN n t), nofun, hle⟩
  | exact =>
    simp only [trialInt, Option.ite_none_right_eq_some, Option.some.injEq] at h
    obtain ⟨⟨-, hle⟩, rfl⟩ := h
    exact ⟨by simp, fun _ => rfl, hle⟩

/-- One position is a division within one trit. -/
theorem divStepInt_dividesWithin (tent : DivTentative) (n : Nat) (s r : Int) :
    DividesWithin tent n 1 s r (divStepInt tent n s r) := by
  unfold divStepInt
  split
  next r' hsub =>
    obtain ⟨hdvd, hexact, hle⟩ := trialInt_eq_some hsub
    have heq : 1 * s + r' - r = r' - (r - s) := by ring
    exact ⟨heq ▸ hdvd, fun h => by rw [hexact h]; ring, hle, le_rfl⟩
  next =>
    split
    next r' hadd =>
      obtain ⟨hdvd, hexact, hle⟩ := trialInt_eq_some hadd
      have heq : -1 * s + r' - r = r' - (r + s) := by ring
      exact ⟨heq ▸ hdvd, fun h => by rw [hexact h]; ring, hle, le_rfl⟩
    next => exact ⟨by simp, fun _ => by simp, le_rfl, Nat.zero_le _⟩

theorem maxValue_succ_eq_pow_add (k : Nat) : maxValue (k + 1) = 3 ^ k + maxValue k := by
  have hspan := three_pow_eq k
  have hnat : 3 ^ k = 2 * maxValue k + 1 := by exact_mod_cast hspan
  rw [maxValue_succ]
  omega

theorem divLoopInt_dividesWithin (tent : DivTentative) (n : Nat) (d : Int) (k : Nat) (r : Int) :
    DividesWithin tent n k d r (divLoopInt tent n d k r) := by
  induction k generalizing r with
  | zero => exact ⟨by simp [divLoopInt], fun _ => by simp [divLoopInt], le_rfl, le_rfl⟩
  | succ k ih =>
    have hstep := divStepInt_dividesWithin tent n (d * 3 ^ k) r
    have hrest := ih (divStepInt tent n (d * 3 ^ k) r).2
    rw [divLoopInt_succ]
    refine ⟨?invariant, fun h => ?exactly, hrest.remainder.trans hstep.remainder, ?quotient⟩
    case invariant =>
      refine (Int.dvd_add hstep.invariant hrest.invariant).trans (dvd_of_eq ?_)
      ring
    case exactly => linear_combination hstep.exactly h + hrest.exactly h
    case quotient =>
      calc ((divStepInt tent n (d * 3 ^ k) r).1 * 3 ^ k
              + (divLoopInt tent n d k (divStepInt tent n (d * 3 ^ k) r).2).1).natAbs
          ≤ (divStepInt tent n (d * 3 ^ k) r).1.natAbs * 3 ^ k + maxValue k := by
            refine (Int.natAbs_add_le _ _).trans (Nat.add_le_add ?_ hrest.quotient)
            rw [natAbs_mul_pow]
        _ ≤ maxValue 1 * 3 ^ k + maxValue k := by
            exact Nat.add_le_add_right (Nat.mul_le_mul_right _ hstep.quotient) _
        _ = maxValue (k + 1) := by rw [maxValue_succ_eq_pow_add k, show maxValue 1 = 1 from rfl, one_mul]

/-! ## A trial whose exact value is in [-M, M] (R147) -/

theorem trialInt_of_natAbs_le {n : Nat} {t : Int} (h : t.natAbs ≤ maxValue n) (tent : DivTentative) (r : Int) :
    trialInt tent n t r = if t.natAbs ≤ r.natAbs then some t else none := by
  cases tent with
  | wrap => rw [trialInt, wrapN_of_natAbs_le h]
  | exact => simp [trialInt, h]

/-- The zero dividend: no trial reduces the remainder 0. -/
theorem divLoopInt_zero {n : Nat} {d : Int} (hd : d ≠ 0) {k : Nat} (hshift : ∀ i < k, d.natAbs * 3 ^ i ≤ maxValue n)
    (tent : DivTentative) : divLoopInt tent n d k 0 = (0, 0) := by
  induction k with
  | zero => rfl
  | succ k ih =>
    have hfits : (d * 3 ^ k).natAbs ≤ maxValue n := (natAbs_mul_pow d k).trans_le (hshift k k.lt_succ_self)
    have hne : d * 3 ^ k ≠ 0 := mul_ne_zero hd (pow_ne_zero k (by decide))
    have hstep : divStepInt tent n (d * 3 ^ k) 0 = (0, 0) := by
      rw [divStepInt, trialInt_of_natAbs_le (by rwa [zero_sub, Int.natAbs_neg]), if_neg (by omega),
        trialInt_of_natAbs_le (by rwa [zero_add]), if_neg (by omega)]
    rw [divLoopInt_succ, hstep, ih fun i hi => hshift i (hi.trans k.lt_succ_self)]
    simp

/-- Where every exact trial is in [-M, M] the reading makes no difference. -/
theorem divLoopInt_readings_agree {n : Nat} {d : Int} {k : Nat} {r : Int}
    (hbound : ∀ i < k, r.natAbs + d.natAbs * 3 ^ i ≤ maxValue n) (tent tent' : DivTentative) :
    divLoopInt tent n d k r = divLoopInt tent' n d k r := by
  induction k generalizing r with
  | zero => rfl
  | succ k ih =>
    have hpos := hbound k k.lt_succ_self
    rw [← natAbs_mul_pow] at hpos
    have hstep : divStepInt tent n (d * 3 ^ k) r = divStepInt tent' n (d * 3 ^ k) r := by
      rw [divStepInt, divStepInt]
      simp only [trialInt_of_natAbs_le (show (r - d * 3 ^ k).natAbs ≤ maxValue n by omega),
        trialInt_of_natAbs_le (show (r + d * 3 ^ k).natAbs ≤ maxValue n by omega)]
    have hle := (divStepInt_dividesWithin tent' n (d * 3 ^ k) r).remainder
    rw [divLoopInt_succ, divLoopInt_succ, hstep,
      ih fun i hi => (Nat.add_le_add_right hle _).trans (hbound i (hi.trans k.lt_succ_self))]

/-! ## EXACT is odd in the dividend (R146) -/

theorem trialInt_exact_neg (n : Nat) (t r : Int) :
    trialInt .exact n (-t) (-r) = (trialInt .exact n t r).map (fun x => -x) := by
  simp only [trialInt, Int.natAbs_neg]
  split <;> rfl

/-- Of r - s and r + s at most one is no larger than r, so that the order of the trials does not matter. -/
theorem trialInt_exact_sub_or_add {s : Int} (hs : s ≠ 0) (n : Nat) (r : Int) :
    trialInt .exact n (r - s) r = none ∨ trialInt .exact n (r + s) r = none := by
  simp only [trialInt, ite_eq_right_iff, reduceCtorEq, imp_false]
  omega

theorem divStepInt_exact_neg {s : Int} (hs : s ≠ 0) (n : Nat) (r : Int) :
    divStepInt .exact n s (-r) = (-(divStepInt .exact n s r).1, -(divStepInt .exact n s r).2) := by
  have hsub : trialInt .exact n (-r - s) (-r) = (trialInt .exact n (r + s) r).map (fun x => -x) := by
    rw [← trialInt_exact_neg, neg_add']
  have hadd : trialInt .exact n (-r + s) (-r) = (trialInt .exact n (r - s) r).map (fun x => -x) := by
    rw [← trialInt_exact_neg, neg_sub', sub_neg_eq_add]
  rw [divStepInt, divStepInt, hsub, hadd]
  obtain hnone | hnone := trialInt_exact_sub_or_add hs n r
  · rw [hnone]
    cases trialInt .exact n (r + s) r <;> simp
  · rw [hnone]
    cases trialInt .exact n (r - s) r <;> simp

theorem divLoopInt_exact_neg {d : Int} (hd : d ≠ 0) (n k : Nat) (r : Int) :
    divLoopInt .exact n d k (-r) = (-(divLoopInt .exact n d k r).1, -(divLoopInt .exact n d k r).2) := by
  induction k generalizing r with
  | zero => simp [divLoopInt]
  | succ k ih =>
    have hne : d * 3 ^ k ≠ 0 := mul_ne_zero hd (pow_ne_zero k (by decide))
    rw [divLoopInt_succ, divLoopInt_succ, divStepInt_exact_neg hne, ih]
    refine Prod.ext ?quotient rfl
    case quotient => ring

/-! ## The statements of R146 and R147 -/

/-- The quotient carries the sign of the divisor, the loop its magnitude. -/
theorem signed_quotient_mul (q d : Int) : (if d < 0 then -1 else 1) * q * d = q * |d| := by
  split
  case isTrue h => rw [abs_of_neg h]; ring
  case isFalse h => rw [abs_of_nonneg (not_lt.1 h)]; ring

theorem natAbs_signed_quotient (q d : Int) : ((if d < 0 then -1 else 1) * q).natAbs = q.natAbs := by
  split <;> simp

theorem eq_zeroWord_of_val {n : Nat} {w : Word} (hw : w.length = n) (h : val w = 0) : w = zeroWord n :=
  eq_of_val_eq (hw.trans (zeroWord_length n).symm) (h.trans (val_zeroWord n).symm)

/-- Words of one width with opposite values are the negation of each other, trit by trit. -/
theorem map_toInt_of_val_neg {v w : Word} (hlength : v.length = w.length) (h : val v = -val w) :
    v.map Trit.toInt = w.map (fun t => -t.toInt) := by
  rw [eq_of_val_eq (hlength.trans (negWord_length w).symm) (h.trans (val_negWord w).symm), map_toInt_negWord]

/-- Settles O57: the values of DIVREM are those of the integer loop, which divides within N - m trits. -/
theorem divremHoldsModuloTheSpan : Obligations.DivremHoldsModuloTheSpan := by
  intro s a b m ha hb hm
  obtain ⟨q, r, hexec, hq, hr, hvalr, hvalq⟩ := divremRefinesTheIntegerLoop s a b m ha hb hm
  obtain ⟨hinvariant, hexactly, hremainder, hquotient⟩ :=
    divLoopInt_dividesWithin s.cfg.divTentative s.cfg.n |val b| (s.cfg.n - m) (val a)
  rw [← signed_quotient_mul, ← hvalq, ← hvalr] at hinvariant
  refine ⟨q, r, hexec, hinvariant, hvalr ▸ hremainder, ?width, fun hzero => ?zero, fun hexact => ?exact⟩
  case width => rwa [hvalq, natAbs_signed_quotient]
  case zero =>
    have hshift : ∀ i < s.cfg.n - m, |val b|.natAbs * 3 ^ i ≤ maxValue s.cfg.n := fun i hi => by
      rw [Int.natAbs_abs]
      exact hm.shifted_le hi
    have hloop := divLoopInt_zero (abs_ne_zero.2 hm.val_ne_zero) hshift s.cfg.divTentative
    rw [(val_eq_zero_iff a).2 hzero, hloop] at hvalq hvalr
    rw [mul_zero] at hvalq
    exact ⟨eq_zeroWord_of_val hq hvalq, eq_zeroWord_of_val hr hvalr⟩
  case exact =>
    have hequation := hexactly hexact
    rwa [← signed_quotient_mul, ← hvalq, ← hvalr] at hequation

/-- Settles O58: both divisions run the same integer loop, for |val(Bop)|, and differ in the sign of the quotient. -/
theorem divremNegatesTheQuotientOnly : Obligations.DivremNegatesTheQuotientOnly := by
  intro s u a b b' ha hb hnonzero hcfg hua hub hneg
  obtain rfl := eq_negWord_of_map_toInt hneg
  obtain ⟨m, hm⟩ := exists_isMsb hnonzero
  have hm' : IsMsb (negWord b) m := by rwa [← msbIndex_eq_some_iff, msbIndex_negWord, msbIndex_eq_some_iff]
  obtain ⟨q, r, hexec, hq, hr, hvalr, hvalq⟩ := divremRefinesTheIntegerLoop s a b m ha hb hm
  obtain ⟨q', r', hexec', hq', hr', hvalr', hvalq'⟩ := divremRefinesTheIntegerLoop u a (negWord b) m hua hub hm'
  rw [hcfg] at hq' hr'
  rw [hcfg, val_negWord, abs_neg] at hvalr' hvalq'
  obtain rfl : r' = r := eq_of_val_eq (hr'.trans hr.symm) (hvalr'.trans hvalr.symm)
  refine ⟨q, q', r', hexec, hexec', map_toInt_of_val_neg (hq'.trans hq.symm) ?_⟩
  rw [hvalq', hvalq]
  obtain hlt | hgt := lt_or_gt_of_ne hm.val_ne_zero
  · rw [if_neg (by omega), if_pos hlt]; ring
  · rw [if_pos (by omega), if_neg (by omega)]; ring

/-- Settles O59: under EXACT the integer loop is odd in the dividend. -/
theorem divremExactIsOddInTheDividend : Obligations.DivremExactIsOddInTheDividend := by
  intro s u a a' b ha hb hnonzero hexact hcfg hua hub hneg
  obtain rfl := eq_negWord_of_map_toInt hneg
  obtain ⟨m, hm⟩ := exists_isMsb hnonzero
  obtain ⟨q, r, hexec, hq, hr, hvalr, hvalq⟩ := divremRefinesTheIntegerLoop s a b m ha hb hm
  obtain ⟨q', r', hexec', hq', hr', hvalr', hvalq'⟩ := divremRefinesTheIntegerLoop u (negWord a) b m hua hub hm
  rw [hcfg] at hq' hr'
  rw [hcfg, hexact, val_negWord, divLoopInt_exact_neg (abs_ne_zero.2 hm.val_ne_zero)] at hvalr' hvalq'
  rw [hexact] at hvalr hvalq
  refine ⟨q, q', r, r', hexec, hexec', map_toInt_of_val_neg (hq'.trans hq.symm) ?quotient,
    map_toInt_of_val_neg (hr'.trans hr.symm) ?remainder⟩
  case quotient => rw [hvalq', hvalq]; ring
  case remainder => rw [hvalr', hvalr]

/-- Settles O60: under the bound no trial leaves [-M, M], so both readings run the same loop, and under EXACT it is exact. -/
theorem divremReadingsAgree : Obligations.DivremReadingsAgree := by
  intro s a b m ha hb hm hbound
  have hpositions : ∀ i < s.cfg.n - m, (val a).natAbs + |val b|.natAbs * 3 ^ i ≤ maxValue s.cfg.n := fun i hi => by
    rw [Int.natAbs_abs]
    refine le_trans (Nat.add_le_add_left (Nat.mul_le_mul_left _ ?_) _) hbound
    exact Nat.pow_le_pow_right (by decide) (by omega)
  have hrefines (tent : DivTentative) := divremRefinesTheIntegerLoop
    { s with cfg := { s.cfg with divTentative := tent } } a b m ha hb hm
  obtain ⟨q, r, -, hq, hr, hvalr, hvalq⟩ := hrefines .exact
  refine ⟨q, r, ?equation, fun tent => ?same⟩
  case equation =>
    rw [hvalq, hvalr, signed_quotient_mul]
    exact (divLoopInt_dividesWithin .exact s.cfg.n |val b| (s.cfg.n - m) (val a)).exactly rfl
  case same =>
    obtain ⟨q', r', hexec, hq', hr', hvalr', hvalq'⟩ := hrefines tent
    have hagree := divLoopInt_readings_agree hpositions tent .exact
    obtain rfl : q' = q := eq_of_val_eq (hq'.trans hq.symm) (by rw [hvalq', hvalq, hagree])
    obtain rfl : r' = r := eq_of_val_eq (hr'.trans hr.symm) (by rw [hvalr', hvalr, hagree])
    exact hexec

end Sys2Proof.Machine
end
